-- ==== Sys2Proof/Word.lean ====
section
/-! DEFINITION. The word types: every width the spec gives a word of this block (spec/30_encoding.md rule R100). -/

namespace Sys2Proof

/-- BYTE of rule R9: bus data bytes, the counter, ROM entries, UPDATE_DISPLAY's operands. -/
abbrev Byte := BitVec 8

/-- The SEQ command word CMD (rule R90). -/
abbrev CmdWord := BitVec 3

/-- The DMUX event word EVT (rule R92). -/
abbrev EvtWord := BitVec 18

/-- The SEQ response word RSP (rule R93). -/
abbrev RspWord := BitVec 12

/-- The UPDATE_DISPLAY response word (rule R94). -/
abbrev DmuxRspWord := BitVec 3

end Sys2Proof
end

