-- ==== Sys2Proof/Syntax.lean ====
section
/-! DEFINITION. The instructions: one constructor for each row of spec/opcode_table.json (eight SEQ command codes, three
DMUX events), and the words a port carries. -/

namespace Sys2Proof

/-- A SEQ command or a DMUX event (30_encoding.md rules R91, R92). -/
inductive Instr where
  /-- Command code 000, reserved (rules R99, R126). -/
  | reserved000
  /-- STANDBY (rule R120). -/
  | standby
  /-- WAKEUP (rule R121). -/
  | wakeup
  /-- IS_READY (rule R122). -/
  | isReady
  /-- WAKEUP_AND_READ (rule R123). -/
  | wakeupAndRead
  /-- READ_AFTER_CONFIG (rule R124). -/
  | readAfterConfig
  /-- READ_AFTER_TEMP (rule R125). -/
  | readAfterTemp
  /-- Command code 111, reserved (rules R99, R126). -/
  | reserved111
  /-- TICK_A (rule R157). -/
  | tickA
  /-- TICK_B (rule R158). -/
  | tickB
  /-- UPDATE_DISPLAY value, base (rule R159). -/
  | updateDisplay (value base : Byte)
  deriving DecidableEq, Repr

/-- A SEQ command, which HOST offers; the others are DMUX events (00_scope.md rule R7). -/
def Instr.isCommand : Instr → Bool
  | .reserved000 | .standby | .wakeup | .isReady | .wakeupAndRead | .readAfterConfig | .readAfterTemp
  | .reserved111 => true
  | .tickA | .tickB | .updateDisplay _ _ => false

/-- A word on one of the block's two input ports: HOST's command port (3 bits, rule R90) or DMUX's event port
(18 bits, rule R92). -/
inductive PortWord where
  | cmd (w : CmdWord)
  | evt (w : EvtWord)
  deriving DecidableEq, Repr

end Sys2Proof
end

