-- ==== Sys2Proof/Decode.lean ====
section
/-! DEFINITION. The decoder of a port word (30_encoding.md rules R90 to R92, R98, R99), total and rejecting by name; after
it the encoder, written from the same tables; then the layout of a port word in whole bytes (log 17). -/

namespace Sys2Proof

/-- Why a word or a row of bytes is no instruction. -/
inductive Reject where
  /-- An event word of kind 00: "the word is not an event" (rule R92). -/
  | noEvent
  /-- Not 1 byte (a command word) and not 3 bytes (an event word). -/
  | badLength
  /-- A bit is set above the 3 or 18 bits of the word (rule R100: one fixed length). -/
  | overlong
  deriving DecidableEq, Repr

/-- The command codes of rule R91. Every 3-bit word is a command; 000 and 111 are accepted and answered ILLEGAL_CMD
(rule R99). -/
def decodeCmd (w : CmdWord) : Instr :=
  match w with
  | 0b000#3 => .reserved000
  | 0b001#3 => .standby
  | 0b010#3 => .wakeup
  | 0b011#3 => .isReady
  | 0b100#3 => .wakeupAndRead
  | 0b101#3 => .readAfterConfig
  | 0b110#3 => .readAfterTemp
  | 0b111#3 => .reserved111

/-- EVT[1:0] (rule R92). -/
def evtKind (w : EvtWord) : BitVec 2 := w.extractLsb' 0 2
/-- EVT[9:2], UPDATE_DISPLAY's value (rules R92, R98). -/
def evtValue (w : EvtWord) : Byte := w.extractLsb' 2 8
/-- EVT[17:10], UPDATE_DISPLAY's base (rules R92, R98). -/
def evtBase (w : EvtWord) : Byte := w.extractLsb' 10 8

/-- The event kinds of rule R92. "For TICK_A and TICK_B, bits 17:2 are ignored." -/
def decodeEvt (w : EvtWord) : Except Reject Instr :=
  match evtKind w with
  | 0b00#2 => .error .noEvent
  | 0b01#2 => .ok .tickA
  | 0b10#2 => .ok .tickB
  | 0b11#2 => .ok (.updateDisplay (evtValue w) (evtBase w))

/-- The instruction a port word stands for. -/
def decode : PortWord → Except Reject Instr
  | .cmd w => .ok (decodeCmd w)
  | .evt w => decodeEvt w

/-- An event word from its fields (rule R92): base in 17:10, value in 9:2, kind in 1:0. -/
def evtWord (kind : BitVec 2) (value base : Byte) : EvtWord := base ++ value ++ kind

/-- The word of an instruction (rules R91, R92). The bits a tick ignores are written 0. -/
def encode : Instr → PortWord
  | .reserved000 => .cmd 0b000#3
  | .standby => .cmd 0b001#3
  | .wakeup => .cmd 0b010#3
  | .isReady => .cmd 0b011#3
  | .wakeupAndRead => .cmd 0b100#3
  | .readAfterConfig => .cmd 0b101#3
  | .readAfterTemp => .cmd 0b110#3
  | .reserved111 => .cmd 0b111#3
  | .tickA => .evt (evtWord 0b01#2 0 0)
  | .tickB => .evt (evtWord 0b10#2 0 0)
  | .updateDisplay value base => .evt (evtWord 0b11#2 value base)

/-! A port word in whole bytes. The block stores no words (20_memory.md rule R83), so this layout is the model's own:
a command word is one byte, an event word three, bit 0 of the word in bit 0 of the first byte. DESIGN CHOICE, safe
(log 17). -/

/-- The port word that a row of bytes holds. -/
def wordOfBytes : List Byte → Except Reject PortWord
  | [b] => if b.toNat < 2 ^ 3 then .ok (.cmd (b.setWidth 3)) else .error .overlong
  | [b0, b1, b2] =>
    if b2.toNat < 2 ^ 2 then .ok (.evt ((b2 ++ b1 ++ b0 : BitVec 24).setWidth 18)) else .error .overlong
  | _ => .error .badLength

/-- The decoder, total on any bytes. -/
def decodeBytes (bytes : List Byte) : Except Reject Instr :=
  match wordOfBytes bytes with
  | .ok w => decode w
  | .error r => .error r

/-- The bytes of a port word. -/
def bytesOfWord : PortWord → List Byte
  | .cmd w => [w.setWidth 8]
  | .evt w => [w.extractLsb' 0 8, w.extractLsb' 8 8, (w.extractLsb' 16 2).setWidth 8]

/-- A word of the opcode table, its bits numbered as the table numbers them, in whole bytes: a row of at most 8 bits is
a command word, a wider one an event word. -/
def tableBytes (nbits w : Nat) : List Byte :=
  if nbits ≤ 8 then [BitVec.ofNat 8 w]
  else [BitVec.ofNat 8 w, BitVec.ofNat 8 (w / 2 ^ 8), BitVec.ofNat 8 (w / 2 ^ 16)]

/-- The instruction the decoder reads from a table row's word. -/
def decodeTableWord (nbits w : Nat) : Option Instr :=
  match decodeBytes (tableBytes nbits w) with
  | .ok i => some i
  | .error _ => none

end Sys2Proof
end

