-- ==== Sys2Proof/Config.lean ====
section
/-! DEFINITION. The implementation parameters of spec/00_scope.md rule R9: the values the source states as constants,
the OPEN ones as constants without a body, and `Params`, the fixed argument of the model (log 1). -/

namespace Sys2Proof

/-- BUS_TIMEOUT (rules R9, R114): "(immediate / bounded / infinite)". -/
inductive BusTimeout where
  | immediate
  | bounded (n : Nat)
  | infinite
  deriving DecidableEq, Repr

/-- The parameters of rule R9 that differ from build to build. State carries one value of this type and no step
writes it (10_state.md rule R42). -/
structure Params where
  /-- CFG_REG: the select byte of the low-power register. -/
  cfgReg : Byte
  /-- DEV_ADDR: the sensor's bus address; its width is not in the source (20_memory.md rule R68). -/
  devAddr : Nat
  /-- BUS_CLK_HZ; no rule reads it. -/
  busClkHz : Nat
  /-- TU: the length of one time unit; no rule reads it (70_reset_and_hazards.md rule R228). -/
  timeUnit : Nat
  /-- DATA_PIN, CLOCK_PIN, SEG_PIN[0..7], EN_PIN[0..1]: the pin assignment. -/
  dataPin : Nat
  clockPin : Nat
  segPin : Vector Nat 8
  enPin : Vector Nat 2
  /-- MAX_POLLS: `none` is unbounded. -/
  maxPolls : Option Nat
  busTimeout : BusTimeout
  /-- TIMEOUT_DISTINCT: a bus timeout is TIMEOUT rather than BUS_ERROR. -/
  timeoutDistinct : Bool
  /-- DIGIT_CODE: the 16 segment patterns (20_memory.md rule R69). -/
  digitCode : Vector Byte 16
  /-- EN_ACTIVE_LEVEL and SEG_ON_LEVEL (41_display_scheduler.md rule R156); `true` is level 1. -/
  enActiveLevel : Bool
  segOnLevel : Bool
  /-- IO_FAIL_POSSIBLE (41_display_scheduler.md rule R160). -/
  ioFailPossible : Bool
  deriving DecidableEq, Repr

namespace Config

/-- TEMP_REG: the select byte of the temperature register. -/
def tempReg : Byte := 0x00
/-- STANDBY_VALUE: the value byte of the standby frame. -/
def standbyValue : Byte := 0x80
/-- WAKE_VALUE: the value byte of the wakeup frame. -/
def wakeValue : Byte := 0x00
/-- READY_MASK: bit 6 of a status byte. -/
def readyMask : Byte := 0x40
/-- SETTLE_DELAY, in TU. -/
def settleDelay : Nat := 10
/-- POLL_DELAY, in TU. -/
def pollDelay : Nat := 10
/-- TICK_A_PERIOD, in microseconds; no rule reads it. -/
def tickAPeriodUs : Nat := 1000000
/-- TICK_B_PERIOD, in microseconds; no rule reads it. -/
def tickBPeriodUs : Nat := 10000
/-- DIGIT_RADIX: the divisor TICK_B uses. -/
def digitRadix : Nat := 16

/-! The OPEN parameters (rule R9, decisions D14, D16, D17): constants without a body, so that nothing in Lean can
evaluate them or prove a value of one. DESIGN CHOICE, safe (log 2). -/

opaque cfgReg : Byte
opaque devAddr : Nat
opaque busClkHz : Nat
opaque timeUnit : Nat
opaque dataPin : Nat
opaque clockPin : Nat
opaque segPin : Vector Nat 8
opaque enPin : Vector Nat 2

/-! What the sensor holds after reset: "unknown after reset (any value)" (70_reset_and_hazards.md rule R210), and the
environment draws of 20_memory.md rule R63. DESIGN CHOICE, safe (log 14). -/

opaque sensorPtr : Byte
opaque sensorStandby : Bool
opaque sensorTemp : Byte
opaque sensorRdy : Bool

/-- The default DIGIT_CODE of 20_memory.md rule R70, bit 0 = segment a up to bit 6 = g, bit 7 = 0. PRESUMED: the spec
marks the table as general knowledge, not in source. Unsafe: a claim that rests on one of its bytes may be false of
the original (log 3). -/
def defaultDigitCode : Vector Byte 16 :=
  #v[0x3F, 0x06, 0x5B, 0x4F, 0x66, 0x6D, 0x7D, 0x07, 0x7F, 0x6F, 0x77, 0x7C, 0x39, 0x5E, 0x79, 0x71]

end Config

/-- The parameter values of rule R9: its defaults, and an unconstrained constant for each OPEN one (log 2, 3, 4). -/
def Params.default : Params where
  cfgReg := Config.cfgReg
  devAddr := Config.devAddr
  busClkHz := Config.busClkHz
  timeUnit := Config.timeUnit
  dataPin := Config.dataPin
  clockPin := Config.clockPin
  segPin := Config.segPin
  enPin := Config.enPin
  maxPolls := none
  busTimeout := .infinite
  timeoutDistinct := false
  digitCode := Config.defaultDigitCode
  enActiveLevel := true
  segOnLevel := true
  ioFailPossible := false

end Sys2Proof
end

