-- ==== Sys2Proof/Environment.lean ====
section
/-! DEFINITION. What HOST, BUS and TIMER present to the block (00_scope.md rule R7), with the environment's draws: the outcomes of
transactions, the turns, and a supply of them that need not end. -/

namespace Sys2Proof

namespace Machine

/-- How BUS ends a transaction, with the environment's draws (log 14, 15). `failed` and `expired` carry what the sensor's
pointer and power mode are after a transmit that ends so ("any value", 20_memory.md rule R66). -/
inductive BusOutcome where
  /-- The transmit was done. -/
  | txOk
  /-- The receive gave this byte: a draw of any byte (20_memory.md rule R67). -/
  | rxOk (b : Byte)
  /-- The receive gave the byte the reference sensor gives; `other` is the draw of 20_memory.md rule R65's third case. -/
  | rxSensor (other : Byte)
  /-- The transaction failed. -/
  | failed (ptr : Byte) (standby : Bool)
  /-- The transaction was not done within the bound (40_sensor_sequencer.md rule R114). -/
  | expired (ptr : Byte) (standby : Bool)
  deriving DecidableEq, Repr

/-- Which event the machine looks at in a step (00_scope.md rule R7: any agent may be scheduled at any step; log 5), with
the environment's draws that belong to it. -/
inductive Turn where
  /-- SEQ is presented HOST's offer, the head of `cmdPort`. -/
  | offer
  /-- SEQ is presented BUS's answer, the head of `busPort`. -/
  | bus
  /-- SEQ is presented TIMER's DelayDone, one of `timerPort`. -/
  | timer
  /-- DMUX is presented the head of `evtPort`, with the environment's draw of io_fail (41_display_scheduler.md rule R160). -/
  | event (ioFail : Bool)
  /-- The sensor's readings change between transactions (20_memory.md rule R63). -/
  | sensor (temp : Byte) (rdy : Bool)
  /-- Reset (70_reset_and_hazards.md rule R210); afterwards the sensor's pointer and power mode are these draws. `answered` is
  the draw whether a request in flight gets its answer all the same ("its answer, if it arrives"; log 13). -/
  | reset (ptr : Byte) (standby answered : Bool)
  deriving DecidableEq, Repr

/-- What the agents present at one time: what joins each port, and the turns in which the units look (log 27). -/
structure Arrival where
  /-- HOST's offers. -/
  cmds : List CmdWord
  /-- TIMER's ticks and HOST's UPDATE_DISPLAYs. -/
  evts : List EvtWord
  /-- BUS's outcomes. -/
  outcomes : List BusOutcome
  /-- TIMER's DelayDone answers. -/
  delays : Nat
  turns : List Turn
  deriving DecidableEq, Repr, Inhabited

end Machine

/-- An endless stream of arrivals, unconstrained: any infinite sequence (60_exceptions.md rule R190). It has no body, so nothing
can be proved of what it brings. DESIGN CHOICE, safe (log 27). -/
opaque Config.arrival : Nat → Machine.Arrival

namespace Machine

/-- What the agents present once the schedule is used up: "A model admits any finite or infinite sequence of tick events, at any
rate and in any interleaving with UPDATE_DISPLAY" (60_exceptions.md rule R190; log 27). -/
inductive Supply where
  /-- Nothing more: the sequence is finite. -/
  | ended
  /-- The same arrival again and again, such as periodic ticks. -/
  | repeating (round : Arrival)
  /-- An unconstrained endless sequence; `next` counts the arrivals that have come. -/
  | free (next : Nat)
  deriving DecidableEq, Repr

end Machine

end Sys2Proof
end

