-- ==== Sys2Proof/Machine/State.lean ====
section
/-! DEFINITION. The state of the block, of the agents around it, and the reasons a step can stop. Plain data only.
INVENTORY.md's '## State' names the rule of spec/ behind each field. -/

namespace Sys2Proof.Machine

/-- SEQ.phase (10_state.md rule R31). The last two constructors are the codes 6 and 7, "never written"; they are kept so
that a state that holds one can be written down and faults (60_exceptions.md rule R186). -/
inductive Phase where
  | idle
  | tx
  | settle
  | rxStatus
  | pollWait
  | rxData
  | code6
  | code7
  deriving DecidableEq, Repr

/-- SEQ.op: a 3-bit command code (10_state.md rule R32, 30_encoding.md rule R91). -/
inductive Op where
  | reserved000
  | standby
  | wakeup
  | isReady
  | wakeupAndRead
  | readAfterConfig
  | readAfterTemp
  | reserved111
  deriving DecidableEq, Repr

/-- The status codes of 60_exceptions.md rule R180. -/
inductive Status where
  | ok
  | busError
  | timeout
  | pollLimit
  | illegalCmd
  | rangeErr
  | baseZero
  | ioError
  deriving DecidableEq, Repr

/-- SEQ.rsp, the response register (10_state.md rule R34). -/
structure Rsp where
  status : Status
  ready : Bool
  data : Byte
  deriving DecidableEq, Repr

/-- A request of 00_scope.md rule R12. Every bus request goes to DEV_ADDR (20_memory.md rule R68) and carries BUS_TIMEOUT
(40_sensor_sequencer.md rule R114). -/
inductive Request where
  | busTx (dev : Nat) (timeout : BusTimeout) (bytes : List Byte)
  | busRx (dev : Nat) (timeout : BusTimeout) (count : Nat)
  | delay (units : Nat)
  deriving DecidableEq, Repr

/-- The sensor-bus sequencer's registers (10_state.md rules R31 to R35). -/
structure Seq where
  phase : Phase
  op : Op
  polls : Nat
  rsp : Rsp
  pending : Option Request
  deriving DecidableEq, Repr

/-- The display multiplexer's registers (10_state.md rules R36 to R39); 1 is `true`. -/
structure Dmux where
  counter : Byte
  flag : Bool
  en0 : Bool
  en1 : Bool
  seg : Byte
  deriving DecidableEq, Repr

/-- The sensor behind BUS (20_memory.md rules R62, R63): environment state, not the block's (10_state.md rule R43). -/
structure Sensor where
  ptr : Byte
  standby : Bool
  temp : Byte
  rdy : Bool
  deriving DecidableEq, Repr

/-- What BUS answers a request with (00_scope.md rule R12). -/
inductive BusAnswer where
  | txOk
  | rxOk (b : Byte)
  | busFail
  | busTimeout
  deriving DecidableEq, Repr

/-- What the block emits (00_scope.md rules R12, R13; 30_encoding.md rules R93, R94). -/
inductive Output where
  /-- SEQ issues a request. -/
  | request (r : Request)
  /-- SEQ's response word. -/
  | rsp (w : RspWord)
  /-- The response word of an UPDATE_DISPLAY. -/
  | dmuxRsp (w : DmuxRspWord)
  /-- TICK_A's diagnostic observation. -/
  | diag (v : Byte)
  /-- A refresh failed. -/
  | ioErr
  deriving DecidableEq, Repr

/-- The whole machine. -/
structure State where
  /-- The parameters of 00_scope.md rule R9; no step writes them (log 1). -/
  params : Params
  seq : Seq
  dmux : Dmux
  sensor : Sensor
  /-- HOST's offers, the head on offer (log 6). -/
  cmdPort : List CmdWord
  /-- The event words presented to DMUX, in the order it takes them (log 6). -/
  evtPort : List EvtWord
  /-- BUS's answers, in order (log 6). -/
  busPort : List BusOutcome
  /-- How many DelayDone answers TIMER presents (log 6). -/
  timerPort : Nat
  /-- How many requests to BUS a reset has forgotten whose answers are still to arrive (70_reset_and_hazards.md rule R210;
  log 13). -/
  busOwed : Nat
  /-- The same of the delays asked of TIMER. -/
  timerOwed : Nat
  /-- Which event is looked at next (log 5). -/
  turns : List Turn
  /-- What the agents go on to present once `turns` is used up (log 27). -/
  supply : Supply
  /-- The draw of io_fail that a refresh reads: a free value (log 25). -/
  ioFail : Bool
  /-- What the block has emitted, newest first (log 9). -/
  out : List Output
  deriving DecidableEq, Repr

/-- Where the machine stops. Both are the model-level faults of 60_exceptions.md rule R186; both are safe. -/
inductive Fault where
  /-- PhaseFault: SEQ was scheduled, or offered a command, while SEQ.phase holds code 6 or 7. Raised by every SEQ command
  and by SEQ's turns. Safe: no rule writes these codes. -/
  | phaseFault (code : BitVec 3)
  /-- RomIndexFault: DIGIT_CODE was asked for an entry past 15. Raised by the refresh only, and no meaning reaches it.
  Safe. -/
  | romIndexFault (index : Nat)
  deriving DecidableEq, Repr

/-- Why an instruction has no meaning. -/
inductive Refusal where
  /-- Not modelled: raised by `exec` for an instruction without a meaning. No arm answers it in this model. Safe. -/
  | notModelled (mnemonic : String)
  deriving DecidableEq, Repr

/-- SEQ after reset (10_state.md rule R44). -/
def Seq.reset : Seq :=
  { phase := .idle, op := .reserved000, polls := 0, rsp := { status := .ok, ready := false, data := 0x00 },
    pending := none }

/-- DMUX after reset (10_state.md rule R45). -/
def Dmux.reset : Dmux :=
  { counter := 0x00, flag := false, en0 := true, en1 := false, seg := 0x00 }

/-- The machine right after reset: both units as rules R44 and R45 say, the parameters of rule R9, an unknown sensor
(log 14), nothing offered, presented, owed or emitted (log 13, 18), and a draw that no refresh has read (log 25). -/
def State.reset : State where
  params := .default
  seq := .reset
  dmux := .reset
  sensor :=
    { ptr := Config.sensorPtr, standby := Config.sensorStandby, temp := Config.sensorTemp, rdy := Config.sensorRdy }
  cmdPort := []
  evtPort := []
  busPort := []
  timerPort := 0
  busOwed := 0
  timerOwed := 0
  turns := []
  supply := .ended
  ioFail := false
  out := []

end Sys2Proof.Machine
end

