-- ==== Sys2Proof/Machine/Ops.lean ====
section
/-! DEFINITION. The register encodings and the named operations every meaning is built from: emitting an event, issuing a
request, completing a command, accepting an offer, taking an event, reading the ROM. The block has no trap mechanism
(60_exceptions.md rules R194, R195): `complete` is the one operation every SEQ error goes through, and nothing is entered
or returned from. -/

namespace Sys2Proof.Machine

/-! ### Codes -/

/-- The phase codes of 10_state.md rule R31. -/
def Phase.code : Phase → BitVec 3
  | .idle => 0
  | .tx => 1
  | .settle => 2
  | .rxStatus => 3
  | .pollWait => 4
  | .rxData => 5
  | .code6 => 6
  | .code7 => 7

/-- The command codes of 30_encoding.md rule R91. -/
def Op.code : Op → CmdWord
  | .reserved000 => 0
  | .standby => 1
  | .wakeup => 2
  | .isReady => 3
  | .wakeupAndRead => 4
  | .readAfterConfig => 5
  | .readAfterTemp => 6
  | .reserved111 => 7

/-- The status codes of 60_exceptions.md rule R180. -/
def Status.code : Status → BitVec 3
  | .ok => 0
  | .busError => 1
  | .timeout => 2
  | .pollLimit => 3
  | .illegalCmd => 4
  | .rangeErr => 5
  | .baseZero => 6
  | .ioError => 7

/-- The response word of 30_encoding.md rule R93: data in 11:4, ready in 3, status in 2:0. -/
def Rsp.word (r : Rsp) : RspWord := r.data ++ BitVec.ofBool r.ready ++ r.status.code

/-! ### Operations on the whole state -/

/-- Emits one event. -/
def emit (o : Output) (s : State) : State := { s with out := o :: s.out }

/-- Issues a request and waits for its answer in `phase` (00_scope.md rule R12, 40_sensor_sequencer.md rule R112). -/
def issue (r : Request) (phase : Phase) (s : State) : State :=
  emit (.request r) { s with seq := { s.seq with phase := phase, pending := some r } }

/-- `BusTx(bytes)`, to DEV_ADDR with BUS_TIMEOUT; SEQ waits in TX. -/
def busTx (bytes : List Byte) (s : State) : State :=
  issue (.busTx s.params.devAddr s.params.busTimeout bytes) .tx s

/-- `BusRx(1)`, from DEV_ADDR with BUS_TIMEOUT; SEQ waits in `phase`. -/
def busRx (phase : Phase) (s : State) : State :=
  issue (.busRx s.params.devAddr s.params.busTimeout 1) phase s

/-- `Delay(n)`; SEQ waits in `phase`. -/
def delay (n : Nat) (phase : Phase) (s : State) : State := issue (.delay n) phase s

/-- `complete(status, ready, data)` of 40_sensor_sequencer.md rule R115. -/
def complete (status : Status) (ready : Bool) (data : Byte) (s : State) : State :=
  emit (.rsp (Rsp.word { status, ready, data }))
    { s with seq := { s.seq with phase := .idle, rsp := { status, ready, data }, pending := none } }

/-- Acceptance of the offered command (40_sensor_sequencer.md rule R111): the op is latched, the poll count cleared and the
offer taken from the port. -/
def accept (op : Op) (s : State) : State :=
  { s with seq := { s.seq with op := op, polls := 0 }, cmdPort := s.cmdPort.tail }

/-- HOST's offer of `op`, whose first action is `first` (40_sensor_sequencer.md rules R110, R111, R116): taken in IDLE, held
unchanged in any other phase, PhaseFault in a phase that is none (log 8, 12). -/
def offered (op : Op) (first : State → State) (s : State) : Host.Outcome State Fault Refusal :=
  match s.seq.phase with
  | .idle => .next (first (accept op s))
  | .tx | .settle | .rxStatus | .pollWait | .rxData => .next s
  | .code6 => .fault (.phaseFault 6)
  | .code7 => .fault (.phaseFault 7)

/-- DMUX takes the event at the head of its port. -/
def takeEvent (s : State) : State := { s with evtPort := s.evtPort.tail }

/-- `respond(status)`: the response word of an UPDATE_DISPLAY (30_encoding.md rule R94). -/
def respond (status : Status) (s : State) : State := emit (.dmuxRsp status.code) s

/-- `ROM(i)` (20_memory.md rule R69): total on 0 to 15, RomIndexFault past it (60_exceptions.md rule R186 b). -/
def rom (p : Params) (i : Nat) : Except Fault Byte :=
  if h : i < 16 then .ok p.digitCode[i] else .error (.romIndexFault i)

end Sys2Proof.Machine
end

