-- ==== Sys2Proof/Machine/Operands.lean ====
section
/-! DEFINITION. Operand forms: the three bus frames of 30_encoding.md rule R95 and the two digits of a displayed value
(41_display_scheduler.md rule R151). A SEQ command has no operand; UPDATE_DISPLAY's two are bytes (30_encoding.md
rule R98). -/

namespace Sys2Proof.Machine

/-- F_STANDBY. -/
def frameStandby (p : Params) : List Byte := [p.cfgReg, Config.standbyValue]

/-- F_WAKE. -/
def frameWake (p : Params) : List Byte := [p.cfgReg, Config.wakeValue]

/-- F_SEL_TEMP. -/
def frameSelTemp : List Byte := [Config.tempReg]

/-- `tens = v / b`, for b >= 1 (41_display_scheduler.md rule R151; log 26). -/
def tens (v b : Nat) : Nat := v / b

/-- `units = v % b`, for b >= 1. -/
def units (v b : Nat) : Nat := v % b

/-- A digit of the pair is 16 or more (41_display_scheduler.md rule R159). -/
def digitsOutOfRange (v b : Nat) : Bool := decide (15 < tens v b) || decide (15 < units v b)

end Sys2Proof.Machine
end

