-- ==== Sys2Proof/Machine/Bus.lean ====
section
/-! DEFINITION. The BUS agent: what it answers (40_sensor_sequencer.md rule R114) and the reference sensor behind it
(20_memory.md rules R62 to R66). The sensor does not constrain the block: `BusOutcome.rxOk` gives any byte (rule R67). -/

namespace Sys2Proof.Machine

/-- `MemRead(S.ptr, 1)` of 20_memory.md rule R65; `other` is the draw of its third case. -/
def Sensor.read (p : Params) (other : Byte) (z : Sensor) : Byte :=
  if z.ptr = Config.tempReg then z.temp
  else if z.ptr = p.cfgReg then
    ((BitVec.ofBool z.standby).setWidth 8 <<< 7) ||| ((BitVec.ofBool z.rdy).setWidth 8 <<< 6)
  else other

/-- A successful transmit (20_memory.md rules R62, R64): the first byte sets the pointer, and a value byte written to
CFG_REG sets the power mode to its bit 7. SEQ sends no other write and no other length. -/
def Sensor.transmitted (p : Params) (bytes : List Byte) (z : Sensor) : Sensor :=
  match bytes with
  | [r] => { z with ptr := r }
  | [r, v] => { z with ptr := r, standby := if r = p.cfgReg then v.getLsbD 7 else z.standby }
  | _ => z

/-- The sensor after BUS ends the pending request. A failed transmit leaves the pointer and the mode any value; a receive
leaves the sensor unchanged (20_memory.md rules R62, R66). -/
def sensorAfter (p : Params) (pending : Option Request) (o : BusOutcome) (z : Sensor) : Sensor :=
  match pending, o with
  | some (.busTx _ _ bytes), .txOk => z.transmitted p bytes
  | some (.busTx _ _ _), .failed ptr standby => { z with ptr := ptr, standby := standby }
  | some (.busTx _ _ _), .expired ptr standby => { z with ptr := ptr, standby := standby }
  | _, _ => z

/-- The answer BUS gives to a transaction not done within the bound (40_sensor_sequencer.md rule R114): none under INFINITE,
else BusTimeout or BusFail as TIMEOUT_DISTINCT says. -/
def expiredAnswer (p : Params) : Option BusAnswer :=
  match p.busTimeout with
  | .infinite => none
  | .immediate | .bounded _ => some (if p.timeoutDistinct then .busTimeout else .busFail)

/-- BUS's answer to SEQ. -/
def busAnswer (p : Params) (z : Sensor) : BusOutcome → Option BusAnswer
  | .txOk => some .txOk
  | .rxOk b => some (.rxOk b)
  | .rxSensor other => some (.rxOk (z.read p other))
  | .failed _ _ => some .busFail
  | .expired _ _ => expiredAnswer p

end Sys2Proof.Machine
end

