-- ==== Sys2Proof/Machine/Flags.lean ====
section
/-! DEFINITION. The block's Boolean computations (10_state.md rule R41): the ready test of a status byte, the poll limit, and
what the alternation flag selects. There are no condition codes. -/

namespace Sys2Proof.Machine

/-- "A status byte b means ready exactly when (b & 0x40) != 0" (30_encoding.md rule R96). -/
def isReadyByte (b : Byte) : Bool := (b &&& Config.readyMask) != 0

/-- `MAX_POLLS = some m` and the new poll count is at least m (40_sensor_sequencer.md rule R116). -/
def pollLimitMet (p : Params) (polls : Nat) : Bool :=
  match p.maxPolls with
  | none => false
  | some m => decide (m ≤ polls)

/-- The digit the flag selects: units when 0, tens when 1 (10_state.md rule R37). -/
def shownDigit (flag : Bool) (tensDigit unitsDigit : Nat) : Nat := if flag then tensDigit else unitsDigit

/-- The DMUX registers a successful refresh leaves: the position the flag selects alone enabled, its pattern on the
segments, the flag inverted, the counter kept (41_display_scheduler.md rule R154). -/
def refreshed (pattern : Byte) (d : Dmux) : Dmux :=
  { counter := d.counter, flag := !d.flag, en0 := !d.flag, en1 := d.flag, seg := pattern }

end Sys2Proof.Machine
end

