-- ==== Sys2Proof/Machine/Display.lean ====
section
/-! DEFINITION. The DMUX events (41_display_scheduler.md): the refresh, the meaning of each event, and the pin levels. -/

namespace Sys2Proof.Machine

/-- The refresh procedure of rule R154, with the failure rule R160: the status it returns and the state it leaves. The
caller guarantees b >= 1 and both digits at most 15. -/
def refresh (v b : Nat) (s : State) : Except Fault (Status × State) :=
  if s.params.ioFailPossible && s.ioFail then .ok (.ioError, emit .ioErr s)
  else
    match rom s.params (shownDigit s.dmux.flag (tens v b) (units v b)) with
    | .ok pattern => .ok (.ok, { s with dmux := refreshed pattern s.dmux })
    | .error f => .error f

/-- TICK_A (rule R157). -/
def execTickA (s : State) : Host.Outcome State Fault Refusal :=
  .next (takeEvent (emit (.diag (s.dmux.counter + 1)) { s with dmux := { s.dmux with counter := s.dmux.counter + 1 } }))

/-- TICK_B (rule R158). A tick has no response word. -/
def execTickB (s : State) : Host.Outcome State Fault Refusal :=
  match refresh s.dmux.counter.toNat Config.digitRadix s with
  | .ok (_, t) => .next (takeEvent t)
  | .error f => .fault f

/-- UPDATE_DISPLAY value, base (rule R159). -/
def execUpdateDisplay (value base : Byte) (s : State) : Host.Outcome State Fault Refusal :=
  if base = 0 then .next (takeEvent (respond .baseZero s))
  else if digitsOutOfRange value.toNat base.toNat then .next (takeEvent (respond .rangeErr s))
  else
    match refresh value.toNat base.toNat s with
    | .ok (status, t) => .next (takeEvent (respond status t))
    | .error f => .fault f

/-! ### Pins (rule R156): levels computed from the registers, `true` is level 1 -/

/-- The level of a line that is on or off. -/
def pinLevel (onLevel : Bool) (on : Bool) : Bool := if on then onLevel else !onLevel

/-- The level of enable pin 0 or 1. -/
def enablePin (s : State) : Fin 2 → Bool
  | 0 => pinLevel s.params.enActiveLevel s.dmux.en0
  | 1 => pinLevel s.params.enActiveLevel s.dmux.en1

/-- The level of segment pin i. -/
def segmentPin (s : State) (i : Fin 8) : Bool := pinLevel s.params.segOnLevel (s.dmux.seg.getLsbD i)

end Sys2Proof.Machine
end

