-- ==== Sys2Proof/Machine/Sequencer.lean ====
section
/-! DEFINITION. The SEQ commands (40_sensor_sequencer.md): the meaning of each command code, which is its acceptance step, and
SEQ's step on each answer, which carries the command to its completion (rule R116). -/

namespace Sys2Proof.Machine

/-! ### The meanings: (IDLE, Offer(op)) of rule R116 -/

/-- Code 000 (rule R126). -/
def execReserved000 (s : State) : Host.Outcome State Fault Refusal :=
  offered .reserved000 (complete .illegalCmd false 0x00) s

/-- STANDBY (rule R120). -/
def execStandby (s : State) : Host.Outcome State Fault Refusal :=
  offered .standby (busTx (frameStandby s.params)) s

/-- WAKEUP (rule R121). -/
def execWakeup (s : State) : Host.Outcome State Fault Refusal :=
  offered .wakeup (busTx (frameWake s.params)) s

/-- IS_READY (rule R122). -/
def execIsReady (s : State) : Host.Outcome State Fault Refusal :=
  offered .isReady (busRx .rxStatus) s

/-- WAKEUP_AND_READ (rule R123). -/
def execWakeupAndRead (s : State) : Host.Outcome State Fault Refusal :=
  offered .wakeupAndRead (busTx (frameWake s.params)) s

/-- READ_AFTER_CONFIG (rule R124). -/
def execReadAfterConfig (s : State) : Host.Outcome State Fault Refusal :=
  offered .readAfterConfig (busTx frameSelTemp) s

/-- READ_AFTER_TEMP (rule R125). -/
def execReadAfterTemp (s : State) : Host.Outcome State Fault Refusal :=
  offered .readAfterTemp (busRx .rxData) s

/-- Code 111 (rule R126). -/
def execReserved111 (s : State) : Host.Outcome State Fault Refusal :=
  offered .reserved111 (complete .illegalCmd false 0x00) s

/-! ### The answers: the other rows of rule R116. `none` is a pair that is not listed: SEQ takes no step. -/

/-- (TX, TxOk). -/
def afterTx (s : State) : Option State :=
  match s.seq.op with
  | .standby | .wakeup | .wakeupAndRead => some (delay Config.settleDelay .settle s)
  | .readAfterConfig => some (busRx .rxData s)
  | .reserved000 | .isReady | .readAfterTemp | .reserved111 => none

/-- (SETTLE, DelayDone). -/
def afterSettle (s : State) : Option State :=
  match s.seq.op with
  | .standby | .wakeup => some (complete .ok false 0x00 s)
  | .wakeupAndRead => some (busRx .rxStatus s)
  | .reserved000 | .isReady | .readAfterConfig | .readAfterTemp | .reserved111 => none

/-- The not-ready arm of a WAKEUP_AND_READ poll: the poll is counted, and the command ends with POLL_LIMIT or waits
POLL_DELAY. -/
def pollNotReady (s : State) : State :=
  let counted : State := { s with seq := { s.seq with polls := s.seq.polls + 1 } }
  if pollLimitMet s.params (s.seq.polls + 1) then complete .pollLimit false 0x00 counted
  else delay Config.pollDelay .pollWait counted

/-- (RX_STATUS, RxOk(b)). -/
def afterStatus (b : Byte) (s : State) : Option State :=
  match s.seq.op with
  | .isReady => some (complete .ok (isReadyByte b) 0x00 s)
  | .wakeupAndRead => some (if isReadyByte b then busRx .rxData s else pollNotReady s)
  | .reserved000 | .standby | .wakeup | .readAfterConfig | .readAfterTemp | .reserved111 => none

/-- SEQ's step on an answer of BUS, by phase. A phase of code 6 or 7 is a fault before this is asked. -/
def seqBusAnswer (a : BusAnswer) (s : State) : Option State :=
  match s.seq.phase, a with
  | .tx, .txOk => afterTx s
  | .rxStatus, .rxOk b => afterStatus b s
  | .rxData, .rxOk b => some (complete .ok false b s)
  | .tx, .busFail | .rxStatus, .busFail | .rxData, .busFail => some (complete .busError false 0x00 s)
  | .tx, .busTimeout | .rxStatus, .busTimeout | .rxData, .busTimeout => some (complete .timeout false 0x00 s)
  | _, _ => none

/-- SEQ's step on TIMER's DelayDone, by phase. -/
def seqDelayDone (s : State) : Option State :=
  match s.seq.phase with
  | .settle => afterSettle s
  | .pollWait => some (busRx .rxStatus s)
  | .idle | .tx | .rxStatus | .rxData | .code6 | .code7 => none

end Sys2Proof.Machine
end

