-- ==== Sys2Proof/Machine/Dispatch.lean ====
section
/-! DEFINITION. One arm per instruction: a direct call of its meaning. -/

namespace Sys2Proof.Machine

def exec (i : Instr) (s : State) : Host.Outcome State Fault Refusal :=
  match i with
  | .reserved000 => Sys2Proof.Machine.execReserved000 s
  | .standby => Sys2Proof.Machine.execStandby s
  | .wakeup => Sys2Proof.Machine.execWakeup s
  | .isReady => Sys2Proof.Machine.execIsReady s
  | .wakeupAndRead => Sys2Proof.Machine.execWakeupAndRead s
  | .readAfterConfig => Sys2Proof.Machine.execReadAfterConfig s
  | .readAfterTemp => Sys2Proof.Machine.execReadAfterTemp s
  | .reserved111 => Sys2Proof.Machine.execReserved111 s
  | .tickA => Sys2Proof.Machine.execTickA s
  | .tickB => Sys2Proof.Machine.execTickB s
  | .updateDisplay value base => Sys2Proof.Machine.execUpdateDisplay value base s

end Sys2Proof.Machine
end

