-- ==== Sys2Proof/Machine/Turns.lean ====
section
/-! DEFINITION. What one turn does: the event it presents, looked at by its unit and taken if the unit can take it. An event
that cannot be taken stays where it is (40_sensor_sequencer.md rules R110, R116; log 5, 6). -/

namespace Sys2Proof.Machine

/-- The instruction on HOST's command port. -/
def fetchCmd (s : State) : Option Instr := s.cmdPort.head?.map decodeCmd

/-- SEQ's turn, unless its phase is none (60_exceptions.md rule R186 a; log 12). -/
def seqTurn (s : State) (result : Host.Outcome State Fault Refusal) : Host.Outcome State Fault Refusal :=
  match s.seq.phase with
  | .code6 => .fault (.phaseFault 6)
  | .code7 => .fault (.phaseFault 7)
  | .idle | .tx | .settle | .rxStatus | .pollWait | .rxData => result

/-- HOST's offer, if there is one. -/
def offerTurn (s : State) : Host.Outcome State Fault Refusal :=
  match fetchCmd s with
  | none => seqTurn s (.next s)
  | some i => exec i s

/-- BUS's answer, if there is one and SEQ waits for it: SEQ steps, the sensor is as the transaction left it, and the answer
is consumed. -/
def busTurn (s : State) : Host.Outcome State Fault Refusal :=
  seqTurn s <|
    match s.busPort with
    | [] => .next s
    | o :: rest =>
      match (busAnswer s.params s.sensor o).bind (seqBusAnswer · s) with
      | none => .next s
      | some t => .next { t with busPort := rest, sensor := sensorAfter s.params s.seq.pending o s.sensor }

/-- TIMER's DelayDone, if there is one and SEQ waits for it. -/
def timerTurn (s : State) : Host.Outcome State Fault Refusal :=
  seqTurn s <|
    match s.timerPort with
    | 0 => .next s
    | n + 1 =>
      match seqDelayDone s with
      | none => .next s
      | some t => .next { t with timerPort := n }

/-- The event at the head of DMUX's port. A word of kind 00 is no event: DMUX takes no step, and the word passes
(30_encoding.md rule R92; log 7). -/
def eventTurn (s : State) : Host.Outcome State Fault Refusal :=
  match s.evtPort with
  | [] => .next s
  | w :: _ =>
    match decodeEvt w with
    | .ok i => exec i s
    | .error _ => .next (takeEvent s)

/-- BUS's answers to forgotten requests leave its port: such an answer "matches no pending request and is dropped"
(70_reset_and_hazards.md rule R210). BUS answers in the order of the requests, so they are the first to stand there; what is
still owed waits for the next arrival (log 13). -/
def dropBusOwed (s : State) : State :=
  { s with busPort := s.busPort.drop s.busOwed, busOwed := s.busOwed - s.busPort.length }

/-- The same of TIMER's answers, of which each is like the other. -/
def dropTimerOwed (s : State) : State :=
  { s with timerPort := s.timerPort - s.timerOwed, timerOwed := s.timerOwed - s.timerPort }

/-- The request in flight is forgotten, and its answer owed to nobody: dropped at once if it stands in the port already, else
when it arrives (70_reset_and_hazards.md rule R210; log 13). -/
def forget (s : State) : State :=
  match s.seq.pending with
  | none => s
  | some (.delay _) => dropTimerOwed { s with timerOwed := s.timerOwed + 1 }
  | some (.busTx _ _ _) | some (.busRx _ _ _) => dropBusOwed { s with busOwed := s.busOwed + 1 }

/-- Reset (70_reset_and_hazards.md rule R210): both units, in one step. The sensor is not reset; its pointer and power mode
are unknown afterwards, here the draws. A request in flight that is never answered owes nothing. -/
def resetBlock (ptr : Byte) (standby answered : Bool) (s : State) : State :=
  let t := if answered then forget s else s
  { t with seq := .reset, dmux := .reset, sensor := { t.sensor with ptr := ptr, standby := standby } }

/-- One turn, on a state from which it has been taken. -/
def turnStep (t : Turn) (s : State) : Host.Outcome State Fault Refusal :=
  match t with
  | .offer => offerTurn s
  | .bus => busTurn s
  | .timer => timerTurn s
  | .event ioFail => eventTurn { s with ioFail := ioFail }
  | .sensor temp rdy => .next { s with sensor := { s.sensor with temp := temp, rdy := rdy } }
  | .reset ptr standby answered => .next (resetBlock ptr standby answered s)

/-- An arrival joins the ports, behind what stands there, and its turns the schedule; of its answers those owed to forgotten
requests are dropped (70_reset_and_hazards.md rule R210; log 13). -/
def arrive (a : Arrival) (s : State) : State :=
  dropTimerOwed <| dropBusOwed { s with
    cmdPort := s.cmdPort ++ a.cmds
    evtPort := s.evtPort ++ a.evts
    busPort := s.busPort ++ a.outcomes
    timerPort := s.timerPort + a.delays
    turns := s.turns ++ a.turns }

/-- The agents' own step: the next arrival of the supply, where there is one. It touches no unit (log 27). -/
def replenish (s : State) : State :=
  match s.supply with
  | .ended => s
  | .repeating round => arrive round s
  | .free next => arrive (Config.arrival next) { s with supply := .free (next + 1) }

/-- The next turn; with the schedule used up, the next arrival, or a wait where there is none (log 5, 27). -/
def nextTurn (s : State) : Host.Outcome State Fault Refusal :=
  match s.turns with
  | [] => .next (replenish s)
  | t :: rest => turnStep t { s with turns := rest }

/-- `s` with a port word as the very next thing its unit is presented: the word at the head of its port and its turn next. The
draw of an event's turn is the one `s` holds. -/
def presentWord (w : PortWord) (s : State) : State :=
  match w with
  | .cmd c => { s with cmdPort := c :: s.cmdPort, turns := .offer :: s.turns }
  | .evt e => { s with evtPort := e :: s.evtPort, turns := .event s.ioFail :: s.turns }

end Sys2Proof.Machine
end

