-- ==== Sys2Proof/Machine/Step.lean ====
section
/-! DEFINITION. One step of the machine, and how a word comes to be what the next step runs. -/

namespace Sys2Proof.Machine

/-- One step: the next turn. -/
def step (s : State) : Host.Outcome State Fault Refusal := nextTurn s

/-- `s` with the instruction of an opcode-table row as what the next step runs (log 17, 18). Bytes that are no port word
change nothing. -/
def State.withFetchWord (s : State) (nbits w : Nat) : State :=
  match wordOfBytes (tableBytes nbits w) with
  | .ok word => presentWord word s
  | .error _ => s

end Sys2Proof.Machine
end

