-- ==== Sys2Proof/Machine/Platform.lean ====
section
/-! DEFINITION. The environment's boot and teardown duties (70_reset_and_hazards.md rules R212 to R216). They are no state of
the block and the block does not check them (rules R213, R214); 00_scope.md rule R5 excludes the interface from the core.
They stand here as a checker of what the environment does (log 20). -/

namespace Sys2Proof.Machine

/-- What the environment does to bring the block up and down. -/
inductive LifeAct where
  /-- Reset the block (rule R212, 1). -/
  | resetBlock
  /-- Construct the bus and attach the device (rule R212, 2), with its success. -/
  | construct (ok : Bool)
  /-- Set every segment and enable pin to output (rule R212, 3; rule R214). -/
  | setOutputs
  /-- Create both periodic timers, with one shared handle to DMUX (rule R212, 4; rule R215). -/
  | createTimers
  /-- HOST offers a SEQ command. -/
  | offer
  /-- SEQ answers a command: its response word (40_sensor_sequencer.md rule R115). -/
  | response
  /-- HOST presents an UPDATE_DISPLAY, which may refresh (41_display_scheduler.md rule R151). -/
  | updateDisplay
  /-- TIMER presents a tick. -/
  | tick
  /-- The timers stop (rule R216). -/
  | stopTimers
  /-- The sensor side is torn down (rule R216). -/
  | teardownBus
  /-- DMUX is torn down (rule R216). -/
  | teardownDmux
  deriving DecidableEq, Repr

/-- How far the environment has come. -/
structure Life where
  wasReset : Bool
  /-- The bus construction: not tried, or its success. -/
  bus : Option Bool
  outputs : Bool
  timers : Bool
  /-- How many SEQ commands are offered or in progress: those offered and not yet answered (`openCommands` of the block's
  state). -/
  commands : Nat
  timersStopped : Bool
  busDown : Bool
  dmuxDown : Bool
  deriving DecidableEq, Repr

/-- Before boot. -/
def Life.start : Life :=
  { wasReset := false, bus := none, outputs := false, timers := false, commands := 0, timersStopped := false,
    busDown := false, dmuxDown := false }

/-- What an act leads to; `none` where it breaks the order of rules R212, R213, R214 and R216. No event that may refresh comes
before the outputs are set, whether TIMER presents it or HOST (rules R212, R214). "No SEQ command may be in progress or offered at
teardown" (rule R216): either part is torn down only when every command offered has been answered. The spec is silent on whether
the environment may do an act of boot or teardown twice (reset the block again, retry a failed bus construction), on tearing down
what was never brought up (DMUX when no timers were created, the sensor side when its construction failed), and on offering a
command once either part is torn down: refusing all of these is the model's choice. DESIGN CHOICE (log 20). -/
def Life.act (a : LifeAct) (l : Life) : Option Life :=
  match a with
  | .resetBlock => if l.wasReset then none else some { l with wasReset := true }
  | .construct ok => if l.wasReset && l.bus.isNone then some { l with bus := some ok } else none
  | .setOutputs => if l.wasReset && !l.outputs then some { l with outputs := true } else none
  | .createTimers => if l.outputs && l.bus.isSome && !l.timers then some { l with timers := true } else none
  | .offer => if l.bus = some true && !l.busDown && !l.dmuxDown then some { l with commands := l.commands + 1 } else none
  | .response => if l.commands = 0 then none else some { l with commands := l.commands - 1 }
  | .updateDisplay => if l.outputs && !l.dmuxDown then some l else none
  | .tick => if l.timers && !l.timersStopped then some l else none
  | .stopTimers => if l.timers && !l.timersStopped then some { l with timersStopped := true } else none
  | .teardownBus =>
    if l.bus = some true && !l.busDown && l.commands == 0 then some { l with busDown := true } else none
  | .teardownDmux =>
    if l.timersStopped && !l.dmuxDown && l.commands == 0 then some { l with dmuxDown := true } else none

/-- A whole history of the environment keeps its duties. -/
def lifeOk : List LifeAct → Life → Bool
  | [], _ => true
  | a :: rest, l =>
    match l.act a with
    | none => false
    | some l' => lifeOk rest l'

/-- The two parts of the sensor side, in the order they are constructed. -/
inductive BusPart where
  | bus
  | device
  deriving DecidableEq, Repr

/-- Construction "propagates the first failure encountered and stops" (rule R213): the parts attempted, and the part whose
failure is the InitError. -/
def constructBus (busOk deviceOk : Bool) : List BusPart × Option BusPart :=
  if busOk then ([.bus, .device], if deviceOk then none else some .device) else ([.bus], some .bus)

/-- Teardown detaches the device, then destroys the bus, "attempts the second step even when the first fails, and it reports
the first error as TeardownError" (rule R216). -/
def teardownBus (detachOk destroyOk : Bool) : List BusPart × Option BusPart :=
  ([.device, .bus], if detachOk then (if destroyOk then none else some .bus) else some .device)

end Sys2Proof.Machine
end

