-- ==== Sys2Proof/WellFormed.lean ====
section
/-! DEFINITION. What a well-formed source operand, frame and parameter set is. An `Instr` carries its operands as 8-bit
words, so every `Instr` is well-formed by its type (30_encoding.md rule R98); the checks below stand where a value is
written with a wider type. -/

namespace Sys2Proof

/-- Rule R101: "Each operand is a decimal number or a 0x hexadecimal number in the range 0 to 255." -/
def operandOk (n : Nat) : Bool := decide (n ≤ 255)

/-- An UPDATE_DISPLAY line's numbers, checked and narrowed to the operand fields of rule R98. -/
def updateDisplayLine (value base : Nat) : Option Instr :=
  if operandOk value && operandOk base then
    some (.updateDisplay (BitVec.ofNat 8 value) (BitVec.ofNat 8 base))
  else none

/-- Every `Instr` is well-formed: a SEQ command has no operand (rule R98), and UPDATE_DISPLAY's are bytes. -/
def Instr.wellFormed : Instr → Bool
  | .reserved000 | .standby | .wakeup | .isReady | .wakeupAndRead | .readAfterConfig | .readAfterTemp
  | .reserved111 | .tickA | .tickB => true
  | .updateDisplay value base => operandOk value.toNat && operandOk base.toNat

/-- Rule R12: BusTx transmits "a byte sequence of length 1 or 2". -/
def frameOk (bytes : List Byte) : Bool := bytes.length == 1 || bytes.length == 2

/-- Rule R9: MAX_POLLS is `none`, or `some m` with m >= 1. -/
def Params.ok (p : Params) : Bool :=
  match p.maxPolls with
  | none => true
  | some m => decide (1 ≤ m)

end Sys2Proof
end

