-- ==== Sys2Proof/Safety.lean ====
section
/-! DEFINITION. What counts as a safe run, in the terms the statements use: the invariants the spec states of SEQ and DMUX,
and the vocabulary of runs. -/

namespace Sys2Proof.Machine

/-! ### SEQ -/

/-- The phase and op pairs that the table of 40_sensor_sequencer.md rule R116 reaches. -/
def legalPair : Phase → Op → Bool
  | .idle, _ => true
  | .tx, op => op == .standby || op == .wakeup || op == .wakeupAndRead || op == .readAfterConfig
  | .settle, op => op == .standby || op == .wakeup || op == .wakeupAndRead
  | .rxStatus, op => op == .isReady || op == .wakeupAndRead
  | .pollWait, op => op == .wakeupAndRead
  | .rxData, op => op == .wakeupAndRead || op == .readAfterConfig || op == .readAfterTemp
  | .code6, _ | .code7, _ => false

/-- The frame of a command that transmits (30_encoding.md rule R95). -/
def frameOf (p : Params) : Op → Option (List Byte)
  | .standby => some [p.cfgReg, 0x80]
  | .wakeup | .wakeupAndRead => some [p.cfgReg, 0x00]
  | .readAfterConfig => some [0x00]
  | .reserved000 | .isReady | .readAfterTemp | .reserved111 => none

/-- The outstanding request that 10_state.md rules R31 and R35 give a phase and an op. -/
def pendingOf (p : Params) : Phase → Op → Option Request
  | .idle, _ | .code6, _ | .code7, _ => none
  | .tx, op => (frameOf p op).map (.busTx p.devAddr p.busTimeout)
  | .settle, _ | .pollWait, _ => some (.delay 10)
  | .rxStatus, _ | .rxData, _ => some (.busRx p.devAddr p.busTimeout 1)

/-- SEQ stands where rule R116 can put it, and waits for what 10_state.md rule R35 says it waits for. -/
def SeqConsistent (s : State) : Prop :=
  legalPair s.seq.phase s.seq.op = true ∧ s.seq.pending = pendingOf s.params s.seq.phase s.seq.op

/-- 10_state.md rule R33: under MAX_POLLS = some m the count holds 0 to m, and while a poll is still to come it is below m. -/
def PollsBounded (s : State) : Prop :=
  ∀ m, s.params.maxPolls = some m →
    s.seq.polls ≤ m ∧
      (s.seq.phase = .tx ∨ s.seq.phase = .settle ∨ s.seq.phase = .rxStatus ∨ s.seq.phase = .pollWait → s.seq.polls < m)

/-- 30_encoding.md rule R93 and decision D12: what a response leaves unused is 0, and the DMUX codes never stand in it. -/
def RspLegal (r : Rsp) : Bool :=
  match r.status with
  | .ok => r.ready == false || r.data == 0x00
  | .busError | .timeout | .pollLimit | .illegalCmd => r.ready == false && r.data == 0x00
  | .rangeErr | .baseZero | .ioError => false

/-! ### DMUX -/

/-- 41_display_scheduler.md rule R155: exactly one position is enabled. -/
def OneEnabled (s : State) : Prop := s.dmux.en1 = !s.dmux.en0

/-! ### The answers of forgotten requests -/

/-- 70_reset_and_hazards.md rule R210: an answer owed to a forgotten request is dropped when it arrives, so while one is owed
nothing stands in the port it would come on. -/
def NothingOwedStands (s : State) : Prop := (s.busOwed = 0 ∨ s.busPort = []) ∧ (s.timerOwed = 0 ∨ s.timerPort = 0)

/-! ### The whole machine -/

/-- Everything the spec says of every state, together. -/
structure Inv (s : State) : Prop where
  params : s.params.ok = true
  seq : SeqConsistent s
  polls : PollsBounded s
  rsp : RspLegal s.seq.rsp = true
  dmux : OneEnabled s
  owed : NothingOwedStands s

/-- No SEQ command is in progress or offered: what 70_reset_and_hazards.md rule R216 asks of the environment at teardown. -/
def Quiet (s : State) : Prop := s.seq.phase = .idle ∧ s.cmdPort = []

/-- How many SEQ commands are offered or in progress. -/
def openCommands (s : State) : Nat := s.cmdPort.length + (s.seq.phase != .idle).toNat

/-- An event that answers a SEQ command. -/
def Output.isRsp : Output → Bool
  | .rsp _ => true
  | .request _ | .dmuxRsp _ | .diag _ | .ioErr => false

/-- How many SEQ commands the block has answered. -/
def responses (s : State) : Nat := s.out.countP Output.isRsp

/-! ### Runs -/

/-- `n` steps of the machine from `s` answer `t`. -/
def Runs (n : Nat) (s t : State) : Prop := Host.Core.run Sys2Proof.core n s = .next t

/-- A turn that presents an event to DMUX. -/
def Turn.isEvent : Turn → Bool
  | .event _ => true
  | .offer | .bus | .timer | .sensor _ _ | .reset _ _ _ => false

/-- A turn that resets the block. -/
def Turn.isReset : Turn → Bool
  | .reset _ _ _ => true
  | .offer | .bus | .timer | .event _ | .sensor _ _ => false

/-- Every arrival still to come meets `P`. -/
def Supply.All (P : Arrival → Prop) : Supply → Prop
  | .ended => True
  | .repeating round => P round
  | .free next => ∀ k, next ≤ k → P (Config.arrival k)

/-- What a unit finds in a turn: the head of its port, if there is one, and the turn's draws. -/
inductive Input where
  | offer (w : Option CmdWord)
  | bus (o : Option BusOutcome)
  | timer (done : Bool)
  | event (w : Option EvtWord) (ioFail : Bool)
  | sensor (temp : Byte) (rdy : Bool)
  | reset (ptr : Byte) (standby : Bool)
  deriving DecidableEq, Repr

/-- What the turn finds in this state. -/
def inputOf (s : State) : Turn → Input
  | .offer => .offer s.cmdPort.head?
  | .bus => .bus s.busPort.head?
  | .timer => .timer (s.timerPort != 0)
  | .event ioFail => .event s.evtPort.head? ioFail
  | .sensor temp rdy => .sensor temp rdy
  | .reset ptr standby _ => .reset ptr standby

/-- What DMUX is presented. -/
def Input.isEvent : Input → Bool
  | .event _ _ => true
  | .offer _ | .bus _ | .timer _ | .sensor _ _ | .reset _ _ => false

/-- A reset of the block. -/
def Input.isReset : Input → Bool
  | .reset _ _ => true
  | .offer _ | .bus _ | .timer _ | .event _ _ | .sensor _ _ => false

/-- What the units find in the turns of the next `n` steps, wherever it comes from; a fault or refusal ends it. -/
def inputs : Nat → State → List Input
  | 0, _ => []
  | n + 1, s =>
    match step s with
    | .next t => (s.turns.head?.map (inputOf s)).toList ++ inputs n t
    | .fault _ | .refused _ => []

/-- How many of the first `n` event words DMUX is presented are TICK_As. -/
def tickACount (n : Nat) (words : List EvtWord) : Nat :=
  (words.take n).countP fun w => w.extractLsb' 0 2 == 1#2

/-- A refresh happened between two states: the alternation flag changed (41_display_scheduler.md rule R154). -/
def refreshes (s t : State) : Bool := s.dmux.flag != t.dmux.flag

/-- Position 0 alone is driven, or position 1 alone. -/
def drives (position0 : Bool) (s : State) : Bool := s.dmux.en0 == position0 && s.dmux.en1 == !position0

/-- How many of the next `n` steps are refreshes that leave just the position `position0` names driven; a fault or refusal
ends the count. -/
def refreshCount (position0 : Bool) : Nat → State → Nat
  | 0, _ => 0
  | n + 1, s =>
    match step s with
    | .next t => (if refreshes s t && drives position0 t then 1 else 0) + refreshCount position0 n t
    | .fault _ | .refused _ => 0

/-- How many of the next `n` steps are refreshes. -/
def refreshTotal : Nat → State → Nat
  | 0, _ => 0
  | n + 1, s =>
    match step s with
    | .next t => (if refreshes s t then 1 else 0) + refreshTotal n t
    | .fault _ | .refused _ => 0

/-! ### The states the statements name, every field of them written out -/

/-- `BusTx(bytes)` as a request of this build. -/
def txRequest (p : Params) (bytes : List Byte) : Request := .busTx p.devAddr p.busTimeout bytes

/-- `BusRx(1)` as a request of this build. -/
def rxRequest (p : Params) : Request := .busRx p.devAddr p.busTimeout 1

/-- The turns of k poll rounds: BUS's status byte, then TIMER's poll delay (40_sensor_sequencer.md rule R123). -/
def pollTurns (k : Nat) : List Turn := (List.replicate k [Turn.bus, Turn.timer]).flatten

/-- What k poll rounds emit after a status byte that is not ready, newest first: each a poll delay and the next receive. -/
def pollRequests (p : Params) (k : Nat) : List Request := (List.replicate k [rxRequest p, Request.delay 10]).flatten

/-- `s` after the command `op` is accepted, its offer taken, its first request issued and awaited in `phase`. -/
def acceptedState (op : Op) (phase : Phase) (r : Request) (s : State) : State :=
  { params := s.params
    seq := { phase := phase, op := op, polls := 0, rsp := s.seq.rsp, pending := some r }
    dmux := s.dmux
    sensor := s.sensor
    cmdPort := s.cmdPort.tail
    evtPort := s.evtPort
    busPort := s.busPort
    timerPort := s.timerPort
    busOwed := s.busOwed
    timerOwed := s.timerOwed
    turns := s.turns
    supply := s.supply
    ioFail := s.ioFail
    out := .request r :: s.out }

/-- `s` after a command has ended: SEQ idle with the command's op, poll count and response, the sensor and SEQ's ports as
given, and the response word emitted after the requests listed (newest first). -/
def endedState (s : State) (op : Op) (polls : Nat) (rsp : Rsp) (sensor : Sensor) (cmdPort : List CmdWord)
    (busPort : List BusOutcome) (timerPort : Nat) (turns : List Turn) (requests : List Request) : State :=
  { params := s.params
    seq := { phase := .idle, op := op, polls := polls, rsp := rsp, pending := none }
    dmux := s.dmux
    sensor := sensor
    cmdPort := cmdPort
    evtPort := s.evtPort
    busPort := busPort
    timerPort := timerPort
    busOwed := s.busOwed
    timerOwed := s.timerOwed
    turns := turns
    supply := s.supply
    ioFail := s.ioFail
    out := .rsp (Rsp.word rsp) :: (requests.map .request ++ s.out) }

/-- `s` after DMUX has taken the event at the head of its port: its registers and what it emits (newest first). -/
def eventState (s : State) (dmux : Dmux) (outputs : List Output) : State :=
  { params := s.params
    seq := s.seq
    dmux := dmux
    sensor := s.sensor
    cmdPort := s.cmdPort
    evtPort := s.evtPort.tail
    busPort := s.busPort
    timerPort := s.timerPort
    busOwed := s.busOwed
    timerOwed := s.timerOwed
    turns := s.turns
    supply := s.supply
    ioFail := s.ioFail
    out := outputs ++ s.out }

end Sys2Proof.Machine
end

