-- ==== Sys2Proof/Certificates/Slice0/Obligations.lean ====
section
/-! DEFINITION. The statements for the provers. Each docstring names the rule of spec/ it formalises; where the spec marks that
rule as its own decision (92_eei_decisions.md) or as derived, the docstring says so. `Runs n s t` is n steps of the machine.
The equalities `exec i s = .next …` write out every field of the next state, so they state the instruction's whole frame:
the parameters (DIGIT_CODE among them), the other unit, the sensor and the other ports keep their values. -/

open Sys2Proof Sys2Proof.Machine

/-! ### Words -/

/-- Rules R91, R92, R98 (the spec's decisions D2, D3): the decoder gives back every instruction from its word, UPDATE_DISPLAY
for every value and base. -/
def Obligations.DecodeEncodeAgree : Prop :=
  ∀ i : Instr, i.wellFormed = true ∧ decode (encode i) = .ok i

/-- Rules R92, R99 (decisions D3, D40): a command word has one meaning and is given back by the encoder; an event word is no
event exactly when its kind is 00; a tick's word is given back up to the ignored bits 17:2, an UPDATE_DISPLAY's whole. -/
def Obligations.DecodedWordIsEncodedBack : Prop :=
  (∀ w : CmdWord, encode (decodeCmd w) = .cmd w) ∧
  (∀ w : EvtWord, decodeEvt w = .error .noEvent ↔ w.extractLsb' 0 2 = 0) ∧
  (∀ (w : EvtWord) (i : Instr), decodeEvt w = .ok i →
    ∃ w' : EvtWord, encode i = .evt w' ∧ w'.extractLsb' 0 2 = w.extractLsb' 0 2 ∧
      (i ≠ .tickA → i ≠ .tickB → w' = w))

/-- Words of 95_test_vectors.md W1 to W9, written out bit by bit from rules R91 and R92. -/
def Obligations.SpecWordsDecode : Prop :=
  decode (.cmd 0b001#3) = .ok .standby ∧ decode (.cmd 0b100#3) = .ok .wakeupAndRead ∧
  decode (.cmd 0b000#3) = .ok .reserved000 ∧ decode (.cmd 0b111#3) = .ok .reserved111 ∧
  decode (.evt 0b000000000000000000#18) = .error .noEvent ∧
  decode (.evt 0b000000000000000001#18) = .ok .tickA ∧
  decode (.evt 0b111111111111111101#18) = .ok .tickA ∧
  decode (.evt 0b000000000000000010#18) = .ok .tickB ∧
  decode (.evt 0b000010100110001111#18) = .ok (.updateDisplay 99 10) ∧
  decode (.evt 0b111111111111111111#18) = .ok (.updateDisplay 255 255)

/-- The model's own byte layout of a port word (log 17): every port word is given back from its bytes, and the decoder of
bytes reads it as the decoder of words does. -/
def Obligations.PortBytesRoundTrip : Prop :=
  ∀ w : PortWord, wordOfBytes (bytesOfWord w) = .ok w ∧ decodeBytes (bytesOfWord w) = decode w

/-- Rule R93 (decision D4): the fields of the response word, for every response. -/
def Obligations.ResponseWordFields : Prop :=
  ∀ (st : Status) (ready : Bool) (data : Byte),
    (Rsp.word ⟨st, ready, data⟩).extractLsb' 0 3 = st.code ∧
    (Rsp.word ⟨st, ready, data⟩).getLsbD 3 = ready ∧
    (Rsp.word ⟨st, ready, data⟩).extractLsb' 4 8 = data

/-! ### Reset, the step and the invariant -/

/-- Rules R44, R45 (the spec's decision D26): what reset leaves in SEQ and DMUX. -/
def Obligations.ResetRegisters : Prop :=
  State.reset.seq = { phase := .idle, op := .reserved000, polls := 0, rsp := ⟨.ok, false, 0x00⟩, pending := none } ∧
  State.reset.dmux = { counter := 0x00, flag := false, en0 := true, en1 := false, seg := 0x00 } ∧
  Op.code State.reset.seq.op = 0 ∧ Phase.code State.reset.seq.phase = 0

/-- The invariant holds at reset (rules R35, R45, R155; the reset values are the spec's decision D26). That nothing is owed to a
forgotten request at State.reset, and so nothing owed stands in a port, is the model's choice of its own fields' reset values
(log 13), and so is that State.reset has the default MAX_POLLS (rule R9, decision D8; log 4). -/
def Obligations.InvariantAtReset : Prop := Inv State.reset

/-- Every step from a state that meets the invariant leaves one that meets it: SEQ's pending request is the one its phase and
op give (rules R31, R35), its poll count stays in range (rule R33), its response is a legal one (rule R93), exactly one
position is enabled (rule R155), MAX_POLLS is legal (rule R9), and while an answer is owed to a forgotten request nothing stands
in the port it would come on (rule R210). The count of what is owed is the model's form of that rule (log 13), and so is the
agents' own step that presents an arrival (log 27). -/
def Obligations.StepKeepsInvariant : Prop :=
  ∀ s t : State, Inv s → step s = .next t → Inv t

/-- From a state that meets the invariant the machine goes on for ever: no fault, no refusal, whatever is offered, answered
or presented (rules R186, R189; decision D37). The invariant's clause on owed answers, the schedule and the arrivals are the
model's form (log 5, 13, 27). -/
def Obligations.NoStopUnderInvariant : Prop :=
  ∀ (s : State), Inv s → ∀ n : Nat, ∃ t, Runs n s t ∧ Inv t

/-- A step on a presented word is the meaning of the instruction it decodes to, on the state with that turn taken (and, for an
event, with that turn's draw): the word of either port. -/
def Obligations.StepRunsDecodedInstruction : Prop :=
  (∀ (s : State) (w : CmdWord) (ws : List CmdWord) (ts : List Turn) (i : Instr),
    s.turns = .offer :: ts → s.cmdPort = w :: ws → decode (.cmd w) = .ok i → step s = exec i { s with turns := ts }) ∧
  (∀ (s : State) (w : EvtWord) (ws : List EvtWord) (io : Bool) (ts : List Turn) (i : Instr),
    s.turns = .event io :: ts → s.evtPort = w :: ws → decode (.evt w) = .ok i →
      step s = exec i { s with turns := ts, ioFail := io }) ∧
  (∀ (s : State) (nbits w : Nat) (i : Instr), decodeTableWord nbits w = some i →
    ∃ word : PortWord, wordOfBytes (tableBytes nbits w) = .ok word ∧ decode word = .ok i ∧
      step (s.withFetchWord nbits w) =
        exec i (match word with
          | .cmd c => { s with cmdPort := c :: s.cmdPort }
          | .evt e => { s with evtPort := e :: s.evtPort }))

/-- Rule R211 (decision D26): after reset, with nothing scheduled, the machine waits as it is; so does any state with nothing
scheduled and nothing more to come (log 5, 27). -/
def Obligations.NothingScheduledWaits : Prop :=
  step State.reset = .next State.reset ∧ ∀ s : State, s.turns = [] → s.supply = .ended → step s = .next s

/-- Rules R7, R190 (decision D30; the form is the model's, log 27): with the schedule used up the agents present the next arrival
of their supply, which joins the ports behind what stands there; no unit steps. The supply may end, repeat for ever, or be any
endless sequence. The first answers that BUS or TIMER then has in its port are dropped, as many as forgotten requests are owed
(rule R210, decision D26, log 13). -/
def Obligations.SupplyOnlyPresents : Prop :=
  ∀ s : State, s.turns = [] →
    (∀ a, s.supply = .repeating a → step s = .next { s with
      cmdPort := s.cmdPort ++ a.cmds, evtPort := s.evtPort ++ a.evts, turns := a.turns,
      busPort := (s.busPort ++ a.outcomes).drop s.busOwed, busOwed := s.busOwed - (s.busPort ++ a.outcomes).length,
      timerPort := s.timerPort + a.delays - s.timerOwed, timerOwed := s.timerOwed - (s.timerPort + a.delays) }) ∧
    (∀ k, s.supply = .free k → step s = .next { s with
      cmdPort := s.cmdPort ++ (Config.arrival k).cmds, evtPort := s.evtPort ++ (Config.arrival k).evts,
      turns := (Config.arrival k).turns, supply := .free (k + 1),
      busPort := (s.busPort ++ (Config.arrival k).outcomes).drop s.busOwed,
      busOwed := s.busOwed - (s.busPort ++ (Config.arrival k).outcomes).length,
      timerPort := s.timerPort + (Config.arrival k).delays - s.timerOwed,
      timerOwed := s.timerOwed - (s.timerPort + (Config.arrival k).delays) })

/-- Rule R92 (decision D3): a word of kind 00 is no event; DMUX takes no step and nothing is emitted. That the word then
passes is the model's choice (log 7). -/
def Obligations.KindZeroIsNoEvent : Prop :=
  ∀ (s : State) (w : EvtWord) (ws : List EvtWord) (io : Bool) (ts : List Turn),
    s.turns = .event io :: ts → s.evtPort = w :: ws → w.extractLsb' 0 2 = 0 →
      step s = .next { s with turns := ts, evtPort := ws, ioFail := io }

/-- Rule R210 (decision D26): reset puts both units in their reset states in one step, forgets the request in flight, and leaves
the sensor's pointer and mode unknown (the draws), its readings alone. By the draw `answered` the forgotten request is never
answered, and then nothing else changes; or its answer is dropped from the port it comes on, and owed if it is not there yet
(log 13). -/
def Obligations.ResetTurnResetsBothUnits : Prop :=
  ∀ (s : State) (ptr : Byte) (standby answered : Bool) (ts : List Turn), s.turns = .reset ptr standby answered :: ts →
    let r : State := { s with
      turns := ts, seq := .reset, dmux := .reset, sensor := { s.sensor with ptr := ptr, standby := standby } }
    (s.seq.pending = none ∨ answered = false → step s = .next r) ∧
    (∀ n, s.seq.pending = some (.delay n) → answered = true → step s = .next { r with
      timerPort := s.timerPort - (s.timerOwed + 1), timerOwed := s.timerOwed + 1 - s.timerPort }) ∧
    (∀ q, s.seq.pending = some q → (∀ n, q ≠ .delay n) → answered = true → step s = .next { r with
      busPort := s.busPort.drop (s.busOwed + 1), busOwed := s.busOwed + 1 - s.busPort.length })

/-- Rule R210 (decision D26): a request in flight at a reset "is forgotten: its answer, if it arrives, matches no pending request
and is dropped", also when it arrives after the reset and a command has been taken in between: SEQ then stands as that command
left it, and only the answers behind the forgotten one's stay. A forgotten request that is never answered takes none of them.
Which draw decides this, and that answers come in the order of the requests, is the model's form (log 13), and so is the arrival
that brings the answers (log 27). -/
def Obligations.ForgottenAnswersAreDropped : Prop :=
  ∀ (s : State) (ptr : Byte) (standby : Bool) (q : Request) (w : CmdWord) (ws : List CmdWord) (a : Arrival),
    Inv s → s.seq.pending = some q → s.supply = .repeating a → s.cmdPort = w :: ws →
    (s.turns = [.reset ptr standby true, .offer] → ∃ t u, Runs 2 s t ∧ Runs 3 s u ∧ t.seq.op.code = w ∧ u.seq = t.seq ∧
      ((∀ n, q ≠ .delay n) → s.busPort = [] →
        u.busPort = a.outcomes.drop (s.busOwed + 1) ∧ u.busOwed = s.busOwed + 1 - a.outcomes.length) ∧
      (∀ n, q = .delay n → s.timerPort = 0 →
        u.timerPort = a.delays - (s.timerOwed + 1) ∧ u.timerOwed = s.timerOwed + 1 - a.delays)) ∧
    (s.turns = [.reset ptr standby false, .offer] → ∃ t u, Runs 2 s t ∧ Runs 3 s u ∧ t.seq.op.code = w ∧ u.seq = t.seq ∧
      (s.busOwed = 0 → u.busPort = s.busPort ++ a.outcomes ∧ u.busOwed = 0) ∧
      (s.timerOwed = 0 → u.timerPort = s.timerPort + a.delays ∧ u.timerOwed = 0))

/-- Rule R42 (decision D29): the parameters "cannot be changed while the block runs". -/
def Obligations.ParametersNeverChange : Prop :=
  ∀ (n : Nat) (s t : State), Runs n s t → t.params = s.params

/-! ### SEQ: offers -/

/-- Rules R111, R116 (decision D1), frames of R95: in IDLE each transmitting command is accepted in one step, in full. -/
def Obligations.TransmittingCommandsAccepted : Prop :=
  ∀ s : State, s.seq.phase = .idle →
    exec .standby s =
      .next (acceptedState .standby .tx (txRequest s.params [s.params.cfgReg, 0x80]) s) ∧
    exec .wakeup s =
      .next (acceptedState .wakeup .tx (txRequest s.params [s.params.cfgReg, 0x00]) s) ∧
    exec .wakeupAndRead s =
      .next (acceptedState .wakeupAndRead .tx (txRequest s.params [s.params.cfgReg, 0x00]) s) ∧
    exec .readAfterConfig s = .next (acceptedState .readAfterConfig .tx (txRequest s.params [0x00]) s)

/-- Rules R111, R116 (decision D1): in IDLE each command that begins with a receive is accepted in one step, in full. -/
def Obligations.ReceivingCommandsAccepted : Prop :=
  ∀ s : State, s.seq.phase = .idle →
    exec .isReady s = .next (acceptedState .isReady .rxStatus (rxRequest s.params) s) ∧
    exec .readAfterTemp s = .next (acceptedState .readAfterTemp .rxData (rxRequest s.params) s)

/-- Rules R99, R126, R184 (decision D40): in IDLE the codes 000 and 111 are accepted and complete in the same step with
ILLEGAL_CMD, RSP 0x004, with no request. -/
def Obligations.ReservedCodesCompleteIllegal : Prop :=
  ∀ s : State, s.seq.phase = .idle →
    exec .reserved000 s = .next (endedState s .reserved000 0 ⟨.illegalCmd, false, 0x00⟩ s.sensor s.cmdPort.tail s.busPort
      s.timerPort s.turns []) ∧
    exec .reserved111 s = .next (endedState s .reserved111 0 ⟨.illegalCmd, false, 0x00⟩ s.sensor s.cmdPort.tail s.busPort
      s.timerPort s.turns []) ∧
    Rsp.word ⟨.illegalCmd, false, 0x00⟩ = 0x004

/-- Rules R32, R110, R111 (decisions D1, D10): whichever command word is on offer, in IDLE a step takes it from the port and
latches its code, and clears the poll count; in every other legal phase it stays on offer and nothing changes. -/
def Obligations.OfferIsTakenOrHeld : Prop :=
  ∀ (s : State) (w : CmdWord) (ws : List CmdWord) (ts : List Turn), s.turns = .offer :: ts → s.cmdPort = w :: ws →
    (s.seq.phase = .idle →
      ∃ t, step s = .next t ∧ t.seq.op.code = w ∧ t.seq.polls = 0 ∧ t.cmdPort = ws) ∧
    (s.seq.phase ≠ .idle → s.seq.phase ≠ .code6 → s.seq.phase ≠ .code7 → step s = .next { s with turns := ts })

/-- Rules R31, R186 (a) (decision D37): in a phase of code 6 or 7 every command and every turn of SEQ faults with that code. -/
def Obligations.IllegalPhaseFaults : Prop :=
  ∀ s : State, s.seq.phase = .code6 ∨ s.seq.phase = .code7 →
    (∀ i : Instr, i.isCommand = true → exec i s = .fault (.phaseFault s.seq.phase.code)) ∧
    (∀ ts, s.turns = .offer :: ts ∨ s.turns = .bus :: ts ∨ s.turns = .timer :: ts →
      step s = .fault (.phaseFault s.seq.phase.code))

/-! ### SEQ: answers -/

/-- Rule R116 (decision D1): "A pair not listed has no step. SEQ then waits, and the event is not consumed." Every pair of a
legal phase and an answer that the table does not list, and an answer that is not there, on the turn that would take it. -/
def Obligations.UnlistedAnswersWait : Prop :=
  ∀ (s : State) (ts : List Turn),
    (s.turns = .bus :: ts → s.seq.phase = .idle ∨ s.seq.phase = .settle ∨ s.seq.phase = .pollWait →
      step s = .next { s with turns := ts }) ∧
    (s.turns = .bus :: ts → s.seq.phase = .tx → (∃ b bs, s.busPort = .rxOk b :: bs) ∨ (∃ b bs, s.busPort = .rxSensor b :: bs) →
      step s = .next { s with turns := ts }) ∧
    (s.turns = .bus :: ts → s.seq.phase = .rxStatus ∨ s.seq.phase = .rxData → (∃ bs, s.busPort = .txOk :: bs) →
      step s = .next { s with turns := ts }) ∧
    (s.turns = .timer :: ts →
      s.seq.phase = .idle ∨ s.seq.phase = .tx ∨ s.seq.phase = .rxStatus ∨ s.seq.phase = .rxData →
      step s = .next { s with turns := ts }) ∧
    (s.turns = .bus :: ts → s.busPort = [] → s.seq.phase ≠ .code6 → s.seq.phase ≠ .code7 →
      step s = .next { s with turns := ts }) ∧
    (s.turns = .timer :: ts → s.timerPort = 0 → s.seq.phase ≠ .code6 → s.seq.phase ≠ .code7 →
      step s = .next { s with turns := ts })

/-- Rule R181: "BUS_ERROR is raised when any bus transaction fails." In every phase that waits for BUS, a transaction that BUS
answers BusFail (a failure, or a timeout where TIMEOUT_DISTINCT does not hold) ends the command in that step with BUS_ERROR,
`ready` 0 and `data` 0x00; nothing else of SEQ and nothing of DMUX changes. -/
def Obligations.BusFailureEndsCommand : Prop :=
  ∀ (s : State) (ts : List Turn) (o : BusOutcome) (bs : List BusOutcome),
    s.seq.phase = .tx ∨ s.seq.phase = .rxStatus ∨ s.seq.phase = .rxData →
    s.turns = .bus :: ts → s.busPort = o :: bs → busAnswer s.params s.sensor o = some .busFail →
      step s = .next (endedState s s.seq.op s.seq.polls ⟨.busError, false, 0x00⟩
        (sensorAfter s.params s.seq.pending o s.sensor) s.cmdPort bs s.timerPort ts []) ∧
      Rsp.word ⟨.busError, false, 0x00⟩ = 0x001

/-- Rule R114 (decision D9): a transaction not done within the bound. Under INFINITE BUS gives no answer and SEQ waits; else
the command ends with TIMEOUT when TIMEOUT_DISTINCT holds and with BUS_ERROR when it does not. -/
def Obligations.ExpiredTransactionAnswer : Prop :=
  ∀ (s : State) (ts : List Turn) (ptr : Byte) (standby : Bool) (bs : List BusOutcome),
    s.seq.phase = .tx ∨ s.seq.phase = .rxStatus ∨ s.seq.phase = .rxData →
    s.turns = .bus :: ts → s.busPort = .expired ptr standby :: bs →
      (s.params.busTimeout = .infinite → step s = .next { s with turns := ts }) ∧
      (s.params.busTimeout ≠ .infinite →
        step s = .next (endedState s s.seq.op s.seq.polls
          ⟨if s.params.timeoutDistinct then .timeout else .busError, false, 0x00⟩
          (sensorAfter s.params s.seq.pending (.expired ptr standby) s.sensor) s.cmdPort bs s.timerPort ts []))

/-- Rules R182, R183 (decisions D8, D9): in no step does SEQ come to hold TIMEOUT unless TIMEOUT_DISTINCT holds and BUS_TIMEOUT
is finite, or POLL_LIMIT unless MAX_POLLS is `some m`. -/
def Obligations.OptionalErrorsNeedTheirParameter : Prop :=
  ∀ s t : State, step s = .next t →
    (t.seq.rsp.status = .timeout → s.seq.rsp.status = .timeout ∨
      (s.params.timeoutDistinct = true ∧ s.params.busTimeout ≠ .infinite)) ∧
    (t.seq.rsp.status = .pollLimit → s.seq.rsp.status = .pollLimit ∨ ∃ m, s.params.maxPolls = some m)

/-- Rules R115, R189 (decision D11): a step that emits a response word leaves SEQ idle with nothing pending and that response
in its register; a step that emits none leaves the register as it was, resets apart. -/
def Obligations.ResponsesComeFromCompletion : Prop :=
  ∀ s t : State, step s = .next t →
    (∀ w, t.out = .rsp w :: s.out → t.seq.phase = .idle ∧ t.seq.pending = none ∧ w = t.seq.rsp.word) ∧
    (t.seq.rsp ≠ s.seq.rsp →
      t.out = .rsp t.seq.rsp.word :: s.out ∨ ∃ ptr standby ans ts, s.turns = .reset ptr standby ans :: ts)

/-- Rule R189: "No error is fatal to the block. After any error SEQ is in IDLE and takes the next command, and DMUX takes the
next event." Whatever status a completion reports, SEQ is idle after it and whichever command word is offered next is taken;
whatever became of an event, DMUX takes the next event word. That a word of kind 00, which is no event (rule R92), passes like
the others is the model's choice (log 7). -/
def Obligations.NoErrorIsFatal : Prop :=
  ∀ s t : State, step s = .next t →
    (∀ w, t.out = .rsp w :: s.out → t.seq.phase = .idle ∧
      ∀ (c : CmdWord) (cs : List CmdWord) (ts : List Turn),
        ∃ u, step { t with cmdPort := c :: cs, turns := .offer :: ts } = .next u ∧ u.seq.op.code = c ∧ u.cmdPort = cs) ∧
    ∀ (e : EvtWord) (es : List EvtWord) (io : Bool) (ts : List Turn),
      ∃ u, step { t with evtPort := e :: es, turns := .event io :: ts } = .next u ∧ u.evtPort = es

/-- Rule R118: "SEQ checks nothing about a received data byte and nothing about which register the sensor has selected": every
byte ends the command with OK and is returned, whatever the sensor holds and whichever register its pointer selects. -/
def Obligations.DataByteIsNotChecked : Prop :=
  ∀ (s : State) (b : Byte) (z : Sensor) (bs : List BusOutcome) (ts : List Turn), s.seq.phase = .rxData →
    s.turns = .bus :: ts → s.busPort = .rxOk b :: bs →
      step { s with sensor := z } =
        .next (endedState s s.seq.op s.seq.polls ⟨.ok, false, b⟩ z s.cmdPort bs s.timerPort ts [])

/-- Rules R95 and R68: "SEQ transmits exactly three frames", each sent by its commands and by them alone, select byte first; every
receive is of one byte, and every bus request goes to DEV_ADDR: whatever a step emits, a request in it is one of these, or a
delay of 10 TU (SETTLE_DELAY and POLL_DELAY of rule R9). -/
def Obligations.OnlyTheThreeFramesAreSent : Prop :=
  (∀ s t : State, step s = .next t → ∃ new : List Output, t.out = new ++ s.out ∧ ∀ r, .request r ∈ new →
    (r = .busTx s.params.devAddr s.params.busTimeout [s.params.cfgReg, 0x80] ∧ t.seq.op = .standby) ∨
    (r = .busTx s.params.devAddr s.params.busTimeout [s.params.cfgReg, 0x00] ∧
      (t.seq.op = .wakeup ∨ t.seq.op = .wakeupAndRead)) ∨
    (r = .busTx s.params.devAddr s.params.busTimeout [0x00] ∧ t.seq.op = .readAfterConfig) ∨
    r = .busRx s.params.devAddr s.params.busTimeout 1 ∨ r = .delay 10) ∧
  ∀ s : State, s.seq.phase = .idle → ∀ i frame,
    (i = .standby ∧ frame = [s.params.cfgReg, 0x80]) ∨ (i = .wakeup ∧ frame = [s.params.cfgReg, 0x00]) ∨
      (i = .wakeupAndRead ∧ frame = [s.params.cfgReg, 0x00]) ∨ (i = .readAfterConfig ∧ frame = [0x00]) →
    ∃ t, exec i s = .next t ∧ t.out = .request (.busTx s.params.devAddr s.params.busTimeout frame) :: s.out

/-- Rules R112, R79: SEQ "issues each request of a sequence only after the answer to the one before": a step that issues a
request finds nothing pending, or consumes the answer to what is pending, and leaves that request alone pending. -/
def Obligations.OneRequestAtATime : Prop :=
  ∀ (s t : State) (r : Request), Inv s → step s = .next t → t.out = .request r :: s.out →
    t.seq.pending = some r ∧
    (s.seq.pending = none ∨
      ((∃ o, s.busPort = o :: t.busPort) ∧ s.timerPort = t.timerPort ∧ ∀ n, s.seq.pending ≠ some (.delay n)) ∨
      (s.timerPort = t.timerPort + 1 ∧ s.busPort = t.busPort ∧ ∃ n, s.seq.pending = some (.delay n)))

/-- Rule R96: "A status byte b means ready exactly when (b & 0x40) != 0, that is when b[6] = 1", the other bits ignored. -/
def Obligations.ReadyIsBitSix : Prop :=
  (∀ b : Byte, (isReadyByte b = true ↔ (b &&& 0x40) ≠ 0) ∧ isReadyByte b = b.getLsbD 6) ∧
  ∀ b c : Byte, b.getLsbD 6 = c.getLsbD 6 → isReadyByte b = isReadyByte c

/-! ### SEQ: whole commands -/

/-- Rules R120, R121 (the settle delay inside the command is decision D5): STANDBY and WAKEUP from IDLE with a done transmit
and the delay answered, in three steps: one 2-byte transmit, one delay of 10 TU, RSP 0x000; the sensor's pointer is then at
CFG_REG and its mode as the value byte says (rules R62, R64). -/
def Obligations.ModeCommandsRun : Prop :=
  ∀ (s : State) (ws : List CmdWord) (bs : List BusOutcome) (n : Nat) (ts : List Turn),
    s.seq.phase = .idle → s.turns = .offer :: .bus :: .timer :: ts → s.busPort = .txOk :: bs → s.timerPort = n + 1 →
    (s.cmdPort = 0b001 :: ws →
      Runs 3 s (endedState s .standby 0 ⟨.ok, false, 0x00⟩ { s.sensor with ptr := s.params.cfgReg, standby := true }
        ws bs n ts [.delay 10, txRequest s.params [s.params.cfgReg, 0x80]])) ∧
    (s.cmdPort = 0b010 :: ws →
      Runs 3 s (endedState s .wakeup 0 ⟨.ok, false, 0x00⟩ { s.sensor with ptr := s.params.cfgReg, standby := false }
        ws bs n ts [.delay 10, txRequest s.params [s.params.cfgReg, 0x00]]))

/-- Rule R122: IS_READY from IDLE, for every answer of BUS: one receive and no transmit, no delay, one response. -/
def Obligations.IsReadyRun : Prop :=
  ∀ (s : State) (ws : List CmdWord) (o : BusOutcome) (bs : List BusOutcome) (ts : List Turn),
    s.seq.phase = .idle → s.cmdPort = 0b011 :: ws → s.turns = .offer :: .bus :: ts → s.busPort = o :: bs →
    (∀ b, busAnswer s.params s.sensor o = some (.rxOk b) →
      Runs 2 s (endedState s .isReady 0 ⟨.ok, (b &&& 0x40) != 0, 0x00⟩ s.sensor ws bs s.timerPort ts
        [rxRequest s.params])) ∧
    (busAnswer s.params s.sensor o = some .busFail →
      Runs 2 s (endedState s .isReady 0 ⟨.busError, false, 0x00⟩ s.sensor ws bs s.timerPort ts [rxRequest s.params])) ∧
    (busAnswer s.params s.sensor o = some .busTimeout →
      Runs 2 s (endedState s .isReady 0 ⟨.timeout, false, 0x00⟩ s.sensor ws bs s.timerPort ts [rxRequest s.params]))

/-- Rule R125: READ_AFTER_TEMP from IDLE, for every answer of BUS: one receive and no transmit; the byte is returned
unchanged, whatever register the sensor has selected. -/
def Obligations.ReadAfterTempRun : Prop :=
  ∀ (s : State) (ws : List CmdWord) (o : BusOutcome) (bs : List BusOutcome) (ts : List Turn),
    s.seq.phase = .idle → s.cmdPort = 0b110 :: ws → s.turns = .offer :: .bus :: ts → s.busPort = o :: bs →
    (∀ b, busAnswer s.params s.sensor o = some (.rxOk b) →
      Runs 2 s (endedState s .readAfterTemp 0 ⟨.ok, false, b⟩ s.sensor ws bs s.timerPort ts [rxRequest s.params])) ∧
    (busAnswer s.params s.sensor o = some .busFail →
      Runs 2 s (endedState s .readAfterTemp 0 ⟨.busError, false, 0x00⟩ s.sensor ws bs s.timerPort ts
        [rxRequest s.params])) ∧
    (busAnswer s.params s.sensor o = some .busTimeout →
      Runs 2 s (endedState s .readAfterTemp 0 ⟨.timeout, false, 0x00⟩ s.sensor ws bs s.timerPort ts
        [rxRequest s.params]))

/-- Rule R124 (no delay between select and receive is decision D7): READ_AFTER_CONFIG from IDLE, for every answer of BUS to the
select and to the receive: a failed select is not followed by the receive; a done one is, at once, and the received byte is
returned unchanged or the receive's failure reported. -/
def Obligations.ReadAfterConfigRun : Prop :=
  ∀ (s : State) (ws : List CmdWord) (o : BusOutcome) (bs : List BusOutcome) (ts : List Turn),
    s.seq.phase = .idle → s.cmdPort = 0b101 :: ws →
    (s.turns = .offer :: .bus :: ts → s.busPort = o :: bs →
      let z := sensorAfter s.params (some (txRequest s.params [0x00])) o s.sensor
      (busAnswer s.params s.sensor o = some .busFail →
        Runs 2 s (endedState s .readAfterConfig 0 ⟨.busError, false, 0x00⟩ z ws bs s.timerPort ts
          [txRequest s.params [0x00]])) ∧
      (busAnswer s.params s.sensor o = some .busTimeout →
        Runs 2 s (endedState s .readAfterConfig 0 ⟨.timeout, false, 0x00⟩ z ws bs s.timerPort ts
          [txRequest s.params [0x00]]))) ∧
    (s.turns = .offer :: .bus :: .bus :: ts → s.busPort = .txOk :: o :: bs →
      let z := { s.sensor with ptr := 0x00 }
      let requests := [rxRequest s.params, txRequest s.params [0x00]]
      (∀ b, busAnswer s.params z o = some (.rxOk b) →
        Runs 3 s (endedState s .readAfterConfig 0 ⟨.ok, false, b⟩ z ws bs s.timerPort ts requests)) ∧
      (busAnswer s.params z o = some .busFail →
        Runs 3 s (endedState s .readAfterConfig 0 ⟨.busError, false, 0x00⟩ z ws bs s.timerPort ts requests)) ∧
      (busAnswer s.params z o = some .busTimeout →
        Runs 3 s (endedState s .readAfterConfig 0 ⟨.timeout, false, 0x00⟩ z ws bs s.timerPort ts requests)))

/-- Rule R123 (decision D6): WAKEUP_AND_READ with k not-ready polls and then a ready one, k below MAX_POLLS: 1 transmit of the
wake frame, the settle delay, k + 1 status receives with exactly k poll delays between them, 1 data receive with no select
before it, and the byte returned unchanged. That polls = k for every k under MAX_POLLS = none is the model's choice, where a
build may saturate the count (log 11). -/
def Obligations.WakeupAndReadRun : Prop :=
  ∀ (s : State) (ws : List CmdWord) (notReady : List Byte) (r d : Byte) (bs : List BusOutcome) (n : Nat)
    (ts : List Turn),
    s.seq.phase = .idle → s.cmdPort = 0b100 :: ws →
    (∀ b ∈ notReady, (b &&& 0x40) = 0) → (r &&& 0x40) ≠ 0 →
    (∀ m, s.params.maxPolls = some m → notReady.length < m) →
    s.turns = .offer :: .bus :: .timer :: (pollTurns notReady.length ++ .bus :: .bus :: ts) →
    s.busPort = .txOk :: (notReady.map .rxOk ++ .rxOk r :: .rxOk d :: bs) →
    s.timerPort = notReady.length + 1 + n →
      Runs (2 * notReady.length + 5) s (endedState s .wakeupAndRead notReady.length ⟨.ok, false, d⟩
        { s.sensor with ptr := s.params.cfgReg, standby := false } ws bs n ts
        (rxRequest s.params :: (pollRequests s.params notReady.length ++
          [rxRequest s.params, .delay 10, txRequest s.params [s.params.cfgReg, 0x00]])))

/-- Rules R116, R123, R183 (decision D8): WAKEUP_AND_READ under MAX_POLLS = some m, m >= 1, with m not-ready polls: POLL_LIMIT
at the m-th, with m - 1 poll delays and no data receive. -/
def Obligations.PollLimitEndsWakeupAndRead : Prop :=
  ∀ (s : State) (ws : List CmdWord) (notReady : List Byte) (bs : List BusOutcome) (n k : Nat) (ts : List Turn),
    s.seq.phase = .idle → s.cmdPort = 0b100 :: ws → s.params.maxPolls = some (k + 1) →
    notReady.length = k + 1 → (∀ b ∈ notReady, (b &&& 0x40) = 0) →
    s.turns = .offer :: .bus :: .timer :: (pollTurns k ++ .bus :: ts) →
    s.busPort = .txOk :: (notReady.map .rxOk ++ bs) → s.timerPort = k + 1 + n →
      Runs (2 * k + 4) s (endedState s .wakeupAndRead (k + 1) ⟨.pollLimit, false, 0x00⟩
        { s.sensor with ptr := s.params.cfgReg, standby := false } ws bs n ts
        (pollRequests s.params k ++ [rxRequest s.params, .delay 10, txRequest s.params [s.params.cfgReg, 0x00]]))

/-- Rules R117, R224 (decisions D8, D41): under MAX_POLLS = none a WAKEUP_AND_READ that stands in its poll loop, and whose every
answer to come is a not-ready byte, never completes: after any number of steps, under any schedule and supply without a reset,
SEQ is still in the loop. -/
def Obligations.NeverReadyNeverCompletes : Prop :=
  ∀ (n : Nat) (s : State), s.params.maxPolls = none → s.seq.op = .wakeupAndRead →
    s.seq.phase = .settle ∨ s.seq.phase = .rxStatus ∨ s.seq.phase = .pollWait →
    (∀ o ∈ s.busPort, ∃ b, o = .rxOk b ∧ (b &&& 0x40) = 0) → (∀ tn ∈ s.turns, tn.isReset = false) →
    s.supply.All (fun a => (∀ o ∈ a.outcomes, ∃ b, o = .rxOk b ∧ (b &&& 0x40) = 0) ∧ ∀ tn ∈ a.turns, tn.isReset = false) →
      ∃ t, Runs n s t ∧ t.seq.op = .wakeupAndRead ∧ t.seq.rsp = s.seq.rsp ∧
        (t.seq.phase = .settle ∨ t.seq.phase = .rxStatus ∨ t.seq.phase = .pollWait)

/-! ### The sensor's register pointer -/

/-- Rule R62: the first byte of every frame sets the pointer when its transmit is done, and a receive does not move it. -/
def Obligations.FramesSetThePointer : Prop :=
  ∀ (s t : State) (ts : List Turn), Inv s → s.turns = .bus :: ts → step s = .next t →
    (∀ dev timeout r rest bs, s.seq.pending = some (.busTx dev timeout (r :: rest)) → s.busPort = .txOk :: bs →
      t.sensor.ptr = r) ∧
    (∀ dev timeout count, s.seq.pending = some (.busRx dev timeout count) → t.sensor = s.sensor)

/-- Rule R218 (derived by the spec from R62 and R125) under the reference sensor of R65 (decision D32): STANDBY followed by
READ_AFTER_TEMP returns the CFG byte, 0x80 with bit 6 = S.rdy, with status OK and no error, for CFG_REG other than 0x00. -/
def Obligations.BareReadAfterStandbyReadsControl : Prop :=
  ∀ (s : State) (ws : List CmdWord) (other : Byte) (bs : List BusOutcome) (n : Nat) (ts : List Turn),
    s.params.cfgReg ≠ 0x00 → s.seq.phase = .idle → s.cmdPort = 0b001 :: 0b110 :: ws →
    s.turns = .offer :: .bus :: .timer :: .offer :: .bus :: ts → s.busPort = .txOk :: .rxSensor other :: bs →
    s.timerPort = n + 1 →
      ∃ t, Runs 5 s t ∧ t.seq.rsp = ⟨.ok, false, if s.sensor.rdy then 0xC0 else 0x80⟩ ∧ t.seq.phase = .idle

/-- Rules R218, R220 (derived by the spec) under the reference sensor of R65 (decision D32): READ_AFTER_CONFIG returns the
temperature; WAKEUP_AND_READ's data receive returns the control byte, not the temperature, for CFG_REG other than 0x00. -/
def Obligations.WhichRegisterAReadReturns : Prop :=
  ∀ (s : State) (ws : List CmdWord) (other r : Byte) (bs : List BusOutcome) (n : Nat) (ts : List Turn),
    s.seq.phase = .idle →
    (s.cmdPort = 0b101 :: ws → s.turns = .offer :: .bus :: .bus :: ts → s.busPort = .txOk :: .rxSensor other :: bs →
      ∃ t, Runs 3 s t ∧ t.seq.rsp = ⟨.ok, false, s.sensor.temp⟩) ∧
    (s.params.cfgReg ≠ 0x00 → (r &&& 0x40) ≠ 0 → s.cmdPort = 0b100 :: ws →
      s.turns = .offer :: .bus :: .timer :: .bus :: .bus :: ts →
      s.busPort = .txOk :: .rxOk r :: .rxSensor other :: bs → s.timerPort = n + 1 →
      ∃ t, Runs 5 s t ∧ t.seq.rsp = ⟨.ok, false, if s.sensor.rdy then 0x40 else 0x00⟩)

/-! ### DMUX -/

/-- Rule R157 (that DIAG cannot fail is decision D31): TICK_A adds 1 modulo 256 to the counter, emits DIAG with the new value,
takes its event, and changes nothing else. -/
def Obligations.TickAEffect : Prop :=
  ∀ s : State, exec .tickA s =
      .next (eventState s { s.dmux with counter := s.dmux.counter + 1 } [.diag (s.dmux.counter + 1)]) ∧
    (s.dmux.counter + 1).toNat = (s.dmux.counter.toNat + 1) % 256

/-- Rules R154, R158 (decisions D20, D22): TICK_B when its output does not fail: the units digit on position 0, or the tens
digit on position 1, from the counter in radix 16; the flag inverted; nothing else written. -/
def Obligations.TickBEffect : Prop :=
  ∀ s : State, (s.params.ioFailPossible && s.ioFail) = false →
    (s.dmux.flag = false →
      exec .tickB s = .next (eventState s
        { counter := s.dmux.counter, flag := true, en0 := true, en1 := false,
          seg := s.params.digitCode[s.dmux.counter.toNat % 16]'(Nat.mod_lt _ (by omega)) } [])) ∧
    (s.dmux.flag = true →
      exec .tickB s = .next (eventState s
        { counter := s.dmux.counter, flag := false, en0 := false, en1 := true,
          seg := s.params.digitCode[s.dmux.counter.toNat / 16]'(by have := s.dmux.counter.isLt; omega) } []))

/-- Rules R154, R159 (decisions D20, D21): UPDATE_DISPLAY v, b with b >= 1 and both digits at most 15, when its output does not
fail: the same refresh of v in radix b, and the response OK. -/
def Obligations.UpdateDisplayEffect : Prop :=
  ∀ (s : State) (v b : Byte) (ht : v.toNat / b.toNat < 16) (hu : v.toNat % b.toNat < 16), b ≠ 0 →
    (s.params.ioFailPossible && s.ioFail) = false →
    (s.dmux.flag = false →
      exec (.updateDisplay v b) s = .next (eventState s
        { counter := s.dmux.counter, flag := true, en0 := true, en1 := false,
          seg := s.params.digitCode[v.toNat % b.toNat] } [.dmuxRsp 0])) ∧
    (s.dmux.flag = true →
      exec (.updateDisplay v b) s = .next (eventState s
        { counter := s.dmux.counter, flag := false, en0 := false, en1 := true,
          seg := s.params.digitCode[v.toNat / b.toNat] } [.dmuxRsp 0]))

/-- Rules R159, R185 (decision D21): UPDATE_DISPLAY with base 0 responds BASE_ZERO, with a digit of 16 or more RANGE_ERR;
neither changes a register, and neither depends on the output's failing. -/
def Obligations.UpdateDisplayRefusesOperands : Prop :=
  ∀ (s : State) (v b : Byte),
    exec (.updateDisplay v 0) s = .next (eventState s s.dmux [.dmuxRsp 6]) ∧
    (b ≠ 0 → 15 < v.toNat / b.toNat ∨ 15 < v.toNat % b.toNat →
      exec (.updateDisplay v b) s = .next (eventState s s.dmux [.dmuxRsp 5]))

/-- Rules R160, R187 (decision D25): when outputs can fail and this one does, TICK_B and an UPDATE_DISPLAY with good operands
change no register; IOERR is emitted, and UPDATE_DISPLAY responds IO_ERROR (both, log 16). -/
def Obligations.FailedRefreshChangesNothing : Prop :=
  ∀ (s : State) (v b : Byte), s.params.ioFailPossible = true → s.ioFail = true →
    exec .tickB s = .next (eventState s s.dmux [.ioErr]) ∧
    (b ≠ 0 → v.toNat / b.toNat < 16 → v.toNat % b.toNat < 16 →
      exec (.updateDisplay v b) s = .next (eventState s s.dmux [.dmuxRsp 7, .ioErr]))

/-- Rules R151, R152: TICK_B's digits are the counter's two nibbles, both in [0, 15] for every 8-bit v, and compose to v. So
TICK_B never asks DIGIT_CODE out of range, and UPDATE_DISPLAY does not because it refuses such operands (rules R69, R159;
decision D21, log 24): every DMUX event in any state answers a next state. -/
def Obligations.HexDigitsAndNoRomFault : Prop :=
  (∀ v : Byte, tens v.toNat 16 ≤ 15 ∧ units v.toNat 16 ≤ 15 ∧ tens v.toNat 16 * 16 + units v.toNat 16 = v.toNat ∧
    tens v.toNat 16 = (v.extractLsb' 4 4).toNat ∧ units v.toNat 16 = (v.extractLsb' 0 4).toNat) ∧
  ∀ (i : Instr) (s : State), i.isCommand = false → ∃ t, exec i s = .next t

/-- Rule R159, corner case (decision D20): UPDATE_DISPLAY of the counter with base 16 leaves DMUX as TICK_B does, whatever the
flag, the table and the output's failing. -/
def Obligations.UpdateDisplaySixteenIsTickB : Prop :=
  ∀ s : State, ∃ t u, exec .tickB s = .next t ∧ exec (.updateDisplay s.dmux.counter 16) s = .next u ∧ t.dmux = u.dmux

/-- Rule R36: "Only TICK_A writes it": in a step other than a reset the counter changes only on a TICK_A, and then by 1; and
"UPDATE_DISPLAY neither reads nor writes it": with any other counter value it does the same and leaves that value. (TICK_B's
reading of it is TickBEffect.) -/
def Obligations.OnlyTickAWritesCounter : Prop :=
  (∀ s t : State, step s = .next t → t.dmux.counter ≠ s.dmux.counter →
    (∃ ptr standby ans ts, s.turns = .reset ptr standby ans :: ts) ∨
    (t.dmux.counter = s.dmux.counter + 1 ∧ ∃ io ts w ws, s.turns = .event io :: ts ∧ s.evtPort = w :: ws ∧
      decode (.evt w) = .ok .tickA)) ∧
  ∀ (s : State) (v b c : Byte), ∃ t, exec (.updateDisplay v b) s = .next t ∧ t.dmux.counter = s.dmux.counter ∧
    exec (.updateDisplay v b) { s with dmux := { s.dmux with counter := c } } =
      .next { t with dmux := { t.dmux with counter := c } }

/-- Rules R37, R38, R39: in a step other than a reset, the outputs and the flag change only by a successful refresh: the event
is TICK_B or UPDATE_DISPLAY, the flag is inverted, and the position it selected is the one enabled. -/
def Obligations.OnlyRefreshWritesOutputs : Prop :=
  ∀ s t : State, step s = .next t →
    (t.dmux.flag ≠ s.dmux.flag ∨ t.dmux.en0 ≠ s.dmux.en0 ∨ t.dmux.en1 ≠ s.dmux.en1 ∨ t.dmux.seg ≠ s.dmux.seg) →
    (∃ ptr standby ans ts, s.turns = .reset ptr standby ans :: ts) ∨
    (t.dmux.flag = !s.dmux.flag ∧ t.dmux.en0 = !s.dmux.flag ∧ t.dmux.en1 = s.dmux.flag ∧
      ∃ io ts w ws i, s.turns = .event io :: ts ∧ s.evtPort = w :: ws ∧ decode (.evt w) = .ok i ∧ i ≠ .tickA)

/-- Rules R155, R156 (decision D23): while exactly one position is enabled, exactly one enable pin is at its active level; a
segment pin is at SEG_ON_LEVEL exactly when its bit is 1. -/
def Obligations.PinLevels : Prop :=
  ∀ s : State,
    (OneEnabled s → (enablePin s 0 = s.params.enActiveLevel ↔ enablePin s 1 = !s.params.enActiveLevel)) ∧
    (enablePin s 0 = s.params.enActiveLevel ↔ s.dmux.en0 = true) ∧
    (enablePin s 1 = s.params.enActiveLevel ↔ s.dmux.en1 = true) ∧
    ∀ i : Fin 8, segmentPin s i = s.params.segOnLevel ↔ s.dmux.seg.getLsbD i = true

/-- Rule R161 (derived by the spec from R157 and R159): over any n events presented in a row, from any counter, the counter
moves by the number of TICK_As among them, modulo 256: 256 of them give it back, fewer (but at least one) never do. Words of
kind 00 (rule R92) may stand among them; that they pass and hold up nothing is the model's choice (log 7). -/
def Obligations.CounterCountsTicks : Prop :=
  ∀ (n : Nat) (s : State), n ≤ s.turns.length → (∀ tn ∈ s.turns.take n, tn.isEvent = true) →
    ∃ t, Runs n s t ∧ t.dmux.counter = s.dmux.counter + BitVec.ofNat 8 (tickACount n s.evtPort) ∧
      (tickACount n s.evtPort = 256 → t.dmux.counter = s.dmux.counter) ∧
      (0 < tickACount n s.evtPort → tickACount n s.evtPort < 256 → t.dmux.counter ≠ s.dmux.counter)

/-- Rule R190 (decision D30): "every tick TIMER presents is taken, exactly once", in an endless sequence too: when the agents repeat
a round of events for ever, each with its turn, then after every number of rounds every event is taken and the counter has moved
by the number of TICK_As presented. The form of the sequence is the model's (log 27), and so is that a word of kind 00 passes
(log 7). -/
def Obligations.EndlessTicksAreTaken : Prop :=
  ∀ (s : State) (round : Arrival) (m : Nat), s.turns = [] → s.evtPort = [] → s.supply = .repeating round →
    (∀ tn ∈ round.turns, tn.isEvent = true) → round.turns.length = round.evts.length →
    ∃ t, Runs (m * (round.evts.length + 1)) s t ∧ t.turns = [] ∧ t.evtPort = [] ∧ t.supply = .repeating round ∧
      t.dmux.counter = s.dmux.counter + BitVec.ofNat 8 (m * tickACount round.evts.length round.evts)

/-- Rule R162 (derived by the spec from R154 and R155): over any run without a reset, from any flag, of N refreshes ceil(N/2)
drive the position the flag selected first and floor(N/2) the other, each driving exactly one. How the run is scheduled and
supplied is the model's form (log 5, 27). -/
def Obligations.RefreshesAlternate : Prop :=
  ∀ (n : Nat) (s : State), (∀ x ∈ inputs n s, x.isReset = false) →
    refreshCount (!s.dmux.flag) n s = (refreshTotal n s + 1) / 2 ∧
    refreshCount s.dmux.flag n s = refreshTotal n s / 2

/-! ### The two units -/

/-- Rule R164 (derived by the spec): DMUX's registers after a run depend only on its registers before, the events it is presented
(words and draws), DIGIT_CODE and IO_FAIL_POSSIBLE: not on SEQ, BUS, the sensor, or on when the events come. Said of what DMUX
finds in its turns, however that is supplied; and of two ports that hold the same words and two schedules with the same event
turns, where the ports end alike too. How events are supplied is the model's form (log 5, 27). -/
def Obligations.DmuxIndependentOfSeqAndTime : Prop :=
  ∀ (n m : Nat) (s s' t t' : State), s.dmux = s'.dmux →
    s.params.digitCode = s'.params.digitCode → s.params.ioFailPossible = s'.params.ioFailPossible →
    Runs n s t → Runs m s' t' →
    ((∀ x ∈ inputs n s, x.isReset = false) → (∀ x ∈ inputs m s', x.isReset = false) →
      (inputs n s).filter Input.isEvent = (inputs m s').filter Input.isEvent → t.dmux = t'.dmux) ∧
    (s.evtPort = s'.evtPort → (n ≤ s.turns.length ∨ s.supply = .ended) → (m ≤ s'.turns.length ∨ s'.supply = .ended) →
      (∀ tn ∈ s.turns.take n, tn.isReset = false) → (∀ tn ∈ s'.turns.take m, tn.isReset = false) →
      (s.turns.take n).filter Turn.isEvent = (s'.turns.take m).filter Turn.isEvent →
      t.dmux = t'.dmux ∧ t.evtPort = t'.evtPort)

/-- Rules R7, R8: SEQ and the sensor after a run depend only on themselves, the parameters and what SEQ, the sensor and reset are
presented: not on DMUX, on the events presented to it, or on when. Said of what is found in their turns, however that is
supplied; and of equal ports, with as many answers owed, and two schedules that agree apart from events. How
inputs are supplied and answers owed is the model's form (log 5, 13, 27). -/
def Obligations.SeqIndependentOfDmux : Prop :=
  ∀ (n m : Nat) (s s' t t' : State), s.seq = s'.seq → s.sensor = s'.sensor → s.params = s'.params →
    Runs n s t → Runs m s' t' →
    ((inputs n s).filter (fun x => !x.isEvent) = (inputs m s').filter (fun x => !x.isEvent) →
      t.seq = t'.seq ∧ t.sensor = t'.sensor) ∧
    (s.cmdPort = s'.cmdPort → s.busPort = s'.busPort → s.timerPort = s'.timerPort →
      s.busOwed = s'.busOwed → s.timerOwed = s'.timerOwed →
      (n ≤ s.turns.length ∨ s.supply = .ended) → (m ≤ s'.turns.length ∨ s'.supply = .ended) →
      (s.turns.take n).filter (fun tn => !tn.isEvent) = (s'.turns.take m).filter (fun tn => !tn.isEvent) →
      t.seq = t'.seq ∧ t.sensor = t'.sensor)

/-- Rule R8: "SEQ and DMUX share no state and do not communicate": a step on SEQ's turn (an offer, BUS's or TIMER's answer)
leaves DMUX and its port alone, and would leave SEQ the same whatever DMUX holds; a step on an event leaves SEQ, the sensor and
SEQ's ports alone, and would leave DMUX the same whatever SEQ holds. -/
def Obligations.UnitsShareNothing : Prop :=
  (∀ (s t : State) (ts : List Turn) (d : Dmux), s.turns = .offer :: ts ∨ s.turns = .bus :: ts ∨ s.turns = .timer :: ts →
    step s = .next t → t.dmux = s.dmux ∧ t.evtPort = s.evtPort ∧
      step { s with dmux := d } = .next { t with dmux := d }) ∧
  (∀ (s t : State) (ts : List Turn) (io : Bool) (q : Seq), s.turns = .event io :: ts → step s = .next t →
    t.seq = s.seq ∧ t.sensor = s.sensor ∧ t.cmdPort = s.cmdPort ∧ t.busPort = s.busPort ∧ t.timerPort = s.timerPort ∧
      step { s with seq := q } = .next { t with seq := q })

/-! ### The environment's duties -/

/-- Rules R110, R115, R116 (decisions D1, D10, D11): outside reset no SEQ command is lost and none is answered twice. A step on a
turn keeps the sum of the commands open (offered or in progress) and the responses given; an arrival adds the commands it offers
and leaves SEQ alone; a run that no command joins keeps the sum. That arrivals come in steps of their own, once the schedule is
used up, which add their commands behind the port, leave SEQ alone and emit nothing, is the model's choice (log 27). What rule R216 (decision D34) asks at teardown, "No SEQ command
may be in progress or offered", is that none is open. -/
def Obligations.CommandsAreAnsweredOnce : Prop :=
  (∀ s t : State, step s = .next t →
    (∀ tn ts, s.turns = tn :: ts → tn.isReset = false → openCommands t + responses t = openCommands s + responses s) ∧
    (s.turns = [] → ∃ more, t.cmdPort = s.cmdPort ++ more ∧ t.seq = s.seq ∧
      openCommands t = openCommands s + more.length ∧ responses t = responses s)) ∧
  (∀ (n : Nat) (s t : State), Runs n s t → s.supply.All (fun a => a.cmds = []) → (∀ x ∈ inputs n s, x.isReset = false) →
    openCommands t + responses t = openCommands s + responses s ∧
      (Quiet t ↔ responses t = openCommands s + responses s)) ∧
  ∀ s : State, Quiet s ↔ openCommands s = 0

/-- Rules R213, R216 (decisions D33, D34): construction stops at the first failure and reports it; teardown attempts both
parts whatever fails, the device first, and reports the first error. -/
def Obligations.ConstructionStopsTeardownGoesOn : Prop :=
  (∀ d, constructBus false d = ([.bus], some .bus)) ∧ constructBus true false = ([.bus, .device], some .device) ∧
  constructBus true true = ([.bus, .device], none) ∧
  (∀ a b, (teardownBus a b).1 = [.device, .bus]) ∧ (∀ b, (teardownBus false b).2 = some .device) ∧
  (teardownBus true false).2 = some .bus ∧ (teardownBus true true).2 = none

/-- Rules R212, R214, R216 (decisions D33, D34): in every history that keeps the environment's duties, each tick comes after the
outputs are set and the timers created, and before the timers stop; each UPDATE_DISPLAY, the other event that may refresh, after
the outputs are set too; each offer after a successful construction; DMUX is torn down after the timers stopped; and at teardown
of either part every command offered has been answered, so that none is in progress or offered (what that says of the block is
CommandsAreAnsweredOnce). That no act of boot or teardown is done twice, so that nothing follows a stop or a teardown, is the
model's choice, and so is that a command may be offered until either part is torn down (log 20). -/
def Obligations.DutifulHistories : Prop :=
  ∀ before after : List LifeAct,
    (lifeOk (before ++ .tick :: after) .start = true →
      .resetBlock ∈ before ∧ .setOutputs ∈ before ∧ .createTimers ∈ before ∧ .stopTimers ∉ before ∧ .teardownDmux ∉ before) ∧
    (lifeOk (before ++ .updateDisplay :: after) .start = true →
      .resetBlock ∈ before ∧ .setOutputs ∈ before ∧ .teardownDmux ∉ before) ∧
    (lifeOk (before ++ .offer :: after) .start = true →
      .resetBlock ∈ before ∧ .construct true ∈ before ∧ .teardownBus ∉ before ∧ .teardownDmux ∉ before) ∧
    (lifeOk (before ++ .teardownDmux :: after) .start = true →
      .stopTimers ∈ before ∧ before.count .offer = before.count .response) ∧
    (lifeOk (before ++ .teardownBus :: after) .start = true →
      .construct true ∈ before ∧ before.count .offer = before.count .response)
end

