-- ==== Sys2Proof/Laws/State.lean ====
section
/-! SUPPORT. What each named operation does to each field of State: one lemma per field, so that no proof unfolds a record
update. -/

namespace Sys2Proof.Machine

variable (s : State)

/-! ### emit -/

@[simp] theorem emit_params (o : Output) : (emit o s).params = s.params := rfl
@[simp] theorem emit_sensor (o : Output) : (emit o s).sensor = s.sensor := rfl
@[simp] theorem emit_dmux (o : Output) : (emit o s).dmux = s.dmux := rfl
@[simp] theorem emit_seq (o : Output) : (emit o s).seq = s.seq := rfl
@[simp] theorem emit_cmdPort (o : Output) : (emit o s).cmdPort = s.cmdPort := rfl
@[simp] theorem emit_evtPort (o : Output) : (emit o s).evtPort = s.evtPort := rfl
@[simp] theorem emit_busPort (o : Output) : (emit o s).busPort = s.busPort := rfl
@[simp] theorem emit_timerPort (o : Output) : (emit o s).timerPort = s.timerPort := rfl
@[simp] theorem emit_busOwed (o : Output) : (emit o s).busOwed = s.busOwed := rfl
@[simp] theorem emit_timerOwed (o : Output) : (emit o s).timerOwed = s.timerOwed := rfl
@[simp] theorem emit_turns (o : Output) : (emit o s).turns = s.turns := rfl
@[simp] theorem emit_supply (o : Output) : (emit o s).supply = s.supply := rfl
@[simp] theorem emit_ioFail (o : Output) : (emit o s).ioFail = s.ioFail := rfl
@[simp] theorem emit_out (o : Output) : (emit o s).out = o :: s.out := rfl

/-! ### issue -/

@[simp] theorem issue_params (r : Request) (ph : Phase) : (issue r ph s).params = s.params := rfl
@[simp] theorem issue_sensor (r : Request) (ph : Phase) : (issue r ph s).sensor = s.sensor := rfl
@[simp] theorem issue_dmux (r : Request) (ph : Phase) : (issue r ph s).dmux = s.dmux := rfl
@[simp] theorem issue_seq (r : Request) (ph : Phase) :
    (issue r ph s).seq = { s.seq with phase := ph, pending := some r } := rfl
@[simp] theorem issue_cmdPort (r : Request) (ph : Phase) : (issue r ph s).cmdPort = s.cmdPort := rfl
@[simp] theorem issue_evtPort (r : Request) (ph : Phase) : (issue r ph s).evtPort = s.evtPort := rfl
@[simp] theorem issue_busPort (r : Request) (ph : Phase) : (issue r ph s).busPort = s.busPort := rfl
@[simp] theorem issue_timerPort (r : Request) (ph : Phase) : (issue r ph s).timerPort = s.timerPort := rfl
@[simp] theorem issue_busOwed (r : Request) (ph : Phase) : (issue r ph s).busOwed = s.busOwed := rfl
@[simp] theorem issue_timerOwed (r : Request) (ph : Phase) : (issue r ph s).timerOwed = s.timerOwed := rfl
@[simp] theorem issue_turns (r : Request) (ph : Phase) : (issue r ph s).turns = s.turns := rfl
@[simp] theorem issue_supply (r : Request) (ph : Phase) : (issue r ph s).supply = s.supply := rfl
@[simp] theorem issue_ioFail (r : Request) (ph : Phase) : (issue r ph s).ioFail = s.ioFail := rfl
@[simp] theorem issue_out (r : Request) (ph : Phase) : (issue r ph s).out = .request r :: s.out := rfl

/-! ### busTx -/

@[simp] theorem busTx_params (bytes : List Byte) : (busTx bytes s).params = s.params := rfl
@[simp] theorem busTx_sensor (bytes : List Byte) : (busTx bytes s).sensor = s.sensor := rfl
@[simp] theorem busTx_dmux (bytes : List Byte) : (busTx bytes s).dmux = s.dmux := rfl
@[simp] theorem busTx_seq (bytes : List Byte) :
    (busTx bytes s).seq = { s.seq with phase := .tx, pending := some (.busTx s.params.devAddr s.params.busTimeout bytes) } := rfl
@[simp] theorem busTx_cmdPort (bytes : List Byte) : (busTx bytes s).cmdPort = s.cmdPort := rfl
@[simp] theorem busTx_evtPort (bytes : List Byte) : (busTx bytes s).evtPort = s.evtPort := rfl
@[simp] theorem busTx_busPort (bytes : List Byte) : (busTx bytes s).busPort = s.busPort := rfl
@[simp] theorem busTx_timerPort (bytes : List Byte) : (busTx bytes s).timerPort = s.timerPort := rfl
@[simp] theorem busTx_busOwed (bytes : List Byte) : (busTx bytes s).busOwed = s.busOwed := rfl
@[simp] theorem busTx_timerOwed (bytes : List Byte) : (busTx bytes s).timerOwed = s.timerOwed := rfl
@[simp] theorem busTx_turns (bytes : List Byte) : (busTx bytes s).turns = s.turns := rfl
@[simp] theorem busTx_supply (bytes : List Byte) : (busTx bytes s).supply = s.supply := rfl
@[simp] theorem busTx_ioFail (bytes : List Byte) : (busTx bytes s).ioFail = s.ioFail := rfl
@[simp] theorem busTx_out (bytes : List Byte) :
    (busTx bytes s).out = .request (.busTx s.params.devAddr s.params.busTimeout bytes) :: s.out := rfl

/-! ### busRx -/

@[simp] theorem busRx_params (ph : Phase) : (busRx ph s).params = s.params := rfl
@[simp] theorem busRx_sensor (ph : Phase) : (busRx ph s).sensor = s.sensor := rfl
@[simp] theorem busRx_dmux (ph : Phase) : (busRx ph s).dmux = s.dmux := rfl
@[simp] theorem busRx_seq (ph : Phase) :
    (busRx ph s).seq = { s.seq with phase := ph, pending := some (.busRx s.params.devAddr s.params.busTimeout 1) } := rfl
@[simp] theorem busRx_cmdPort (ph : Phase) : (busRx ph s).cmdPort = s.cmdPort := rfl
@[simp] theorem busRx_evtPort (ph : Phase) : (busRx ph s).evtPort = s.evtPort := rfl
@[simp] theorem busRx_busPort (ph : Phase) : (busRx ph s).busPort = s.busPort := rfl
@[simp] theorem busRx_timerPort (ph : Phase) : (busRx ph s).timerPort = s.timerPort := rfl
@[simp] theorem busRx_busOwed (ph : Phase) : (busRx ph s).busOwed = s.busOwed := rfl
@[simp] theorem busRx_timerOwed (ph : Phase) : (busRx ph s).timerOwed = s.timerOwed := rfl
@[simp] theorem busRx_turns (ph : Phase) : (busRx ph s).turns = s.turns := rfl
@[simp] theorem busRx_supply (ph : Phase) : (busRx ph s).supply = s.supply := rfl
@[simp] theorem busRx_ioFail (ph : Phase) : (busRx ph s).ioFail = s.ioFail := rfl
@[simp] theorem busRx_out (ph : Phase) :
    (busRx ph s).out = .request (.busRx s.params.devAddr s.params.busTimeout 1) :: s.out := rfl

/-! ### delay -/

@[simp] theorem delay_params (n : Nat) (ph : Phase) : (delay n ph s).params = s.params := rfl
@[simp] theorem delay_sensor (n : Nat) (ph : Phase) : (delay n ph s).sensor = s.sensor := rfl
@[simp] theorem delay_dmux (n : Nat) (ph : Phase) : (delay n ph s).dmux = s.dmux := rfl
@[simp] theorem delay_seq (n : Nat) (ph : Phase) :
    (delay n ph s).seq = { s.seq with phase := ph, pending := some (.delay n) } := rfl
@[simp] theorem delay_cmdPort (n : Nat) (ph : Phase) : (delay n ph s).cmdPort = s.cmdPort := rfl
@[simp] theorem delay_evtPort (n : Nat) (ph : Phase) : (delay n ph s).evtPort = s.evtPort := rfl
@[simp] theorem delay_busPort (n : Nat) (ph : Phase) : (delay n ph s).busPort = s.busPort := rfl
@[simp] theorem delay_timerPort (n : Nat) (ph : Phase) : (delay n ph s).timerPort = s.timerPort := rfl
@[simp] theorem delay_busOwed (n : Nat) (ph : Phase) : (delay n ph s).busOwed = s.busOwed := rfl
@[simp] theorem delay_timerOwed (n : Nat) (ph : Phase) : (delay n ph s).timerOwed = s.timerOwed := rfl
@[simp] theorem delay_turns (n : Nat) (ph : Phase) : (delay n ph s).turns = s.turns := rfl
@[simp] theorem delay_supply (n : Nat) (ph : Phase) : (delay n ph s).supply = s.supply := rfl
@[simp] theorem delay_ioFail (n : Nat) (ph : Phase) : (delay n ph s).ioFail = s.ioFail := rfl
@[simp] theorem delay_out (n : Nat) (ph : Phase) : (delay n ph s).out = .request (.delay n) :: s.out := rfl

/-! ### complete -/

@[simp] theorem complete_params (st : Status) (rdy : Bool) (b : Byte) : (complete st rdy b s).params = s.params := rfl
@[simp] theorem complete_sensor (st : Status) (rdy : Bool) (b : Byte) : (complete st rdy b s).sensor = s.sensor := rfl
@[simp] theorem complete_dmux (st : Status) (rdy : Bool) (b : Byte) : (complete st rdy b s).dmux = s.dmux := rfl
@[simp] theorem complete_seq (st : Status) (rdy : Bool) (b : Byte) :
    (complete st rdy b s).seq = { s.seq with phase := .idle, rsp := ⟨st, rdy, b⟩, pending := none } := rfl
@[simp] theorem complete_cmdPort (st : Status) (rdy : Bool) (b : Byte) :
    (complete st rdy b s).cmdPort = s.cmdPort := rfl
@[simp] theorem complete_evtPort (st : Status) (rdy : Bool) (b : Byte) :
    (complete st rdy b s).evtPort = s.evtPort := rfl
@[simp] theorem complete_busPort (st : Status) (rdy : Bool) (b : Byte) :
    (complete st rdy b s).busPort = s.busPort := rfl
@[simp] theorem complete_timerPort (st : Status) (rdy : Bool) (b : Byte) :
    (complete st rdy b s).timerPort = s.timerPort := rfl
@[simp] theorem complete_busOwed (st : Status) (rdy : Bool) (b : Byte) :
    (complete st rdy b s).busOwed = s.busOwed := rfl
@[simp] theorem complete_timerOwed (st : Status) (rdy : Bool) (b : Byte) :
    (complete st rdy b s).timerOwed = s.timerOwed := rfl
@[simp] theorem complete_turns (st : Status) (rdy : Bool) (b : Byte) : (complete st rdy b s).turns = s.turns := rfl
@[simp] theorem complete_supply (st : Status) (rdy : Bool) (b : Byte) : (complete st rdy b s).supply = s.supply := rfl
@[simp] theorem complete_ioFail (st : Status) (rdy : Bool) (b : Byte) : (complete st rdy b s).ioFail = s.ioFail := rfl
@[simp] theorem complete_out (st : Status) (rdy : Bool) (b : Byte) :
    (complete st rdy b s).out = .rsp (Rsp.word ⟨st, rdy, b⟩) :: s.out := rfl

/-! ### accept -/

@[simp] theorem accept_params (op : Op) : (accept op s).params = s.params := rfl
@[simp] theorem accept_sensor (op : Op) : (accept op s).sensor = s.sensor := rfl
@[simp] theorem accept_dmux (op : Op) : (accept op s).dmux = s.dmux := rfl
@[simp] theorem accept_seq (op : Op) : (accept op s).seq = { s.seq with op := op, polls := 0 } := rfl
@[simp] theorem accept_cmdPort (op : Op) : (accept op s).cmdPort = s.cmdPort.tail := rfl
@[simp] theorem accept_evtPort (op : Op) : (accept op s).evtPort = s.evtPort := rfl
@[simp] theorem accept_busPort (op : Op) : (accept op s).busPort = s.busPort := rfl
@[simp] theorem accept_timerPort (op : Op) : (accept op s).timerPort = s.timerPort := rfl
@[simp] theorem accept_busOwed (op : Op) : (accept op s).busOwed = s.busOwed := rfl
@[simp] theorem accept_timerOwed (op : Op) : (accept op s).timerOwed = s.timerOwed := rfl
@[simp] theorem accept_turns (op : Op) : (accept op s).turns = s.turns := rfl
@[simp] theorem accept_supply (op : Op) : (accept op s).supply = s.supply := rfl
@[simp] theorem accept_ioFail (op : Op) : (accept op s).ioFail = s.ioFail := rfl
@[simp] theorem accept_out (op : Op) : (accept op s).out = s.out := rfl

/-! ### takeEvent -/

@[simp] theorem takeEvent_params : (takeEvent s).params = s.params := rfl
@[simp] theorem takeEvent_sensor : (takeEvent s).sensor = s.sensor := rfl
@[simp] theorem takeEvent_dmux : (takeEvent s).dmux = s.dmux := rfl
@[simp] theorem takeEvent_seq : (takeEvent s).seq = s.seq := rfl
@[simp] theorem takeEvent_cmdPort : (takeEvent s).cmdPort = s.cmdPort := rfl
@[simp] theorem takeEvent_evtPort : (takeEvent s).evtPort = s.evtPort.tail := rfl
@[simp] theorem takeEvent_busPort : (takeEvent s).busPort = s.busPort := rfl
@[simp] theorem takeEvent_timerPort : (takeEvent s).timerPort = s.timerPort := rfl
@[simp] theorem takeEvent_busOwed : (takeEvent s).busOwed = s.busOwed := rfl
@[simp] theorem takeEvent_timerOwed : (takeEvent s).timerOwed = s.timerOwed := rfl
@[simp] theorem takeEvent_turns : (takeEvent s).turns = s.turns := rfl
@[simp] theorem takeEvent_supply : (takeEvent s).supply = s.supply := rfl
@[simp] theorem takeEvent_ioFail : (takeEvent s).ioFail = s.ioFail := rfl
@[simp] theorem takeEvent_out : (takeEvent s).out = s.out := rfl

/-! ### respond -/

@[simp] theorem respond_params (st : Status) : (respond st s).params = s.params := rfl
@[simp] theorem respond_sensor (st : Status) : (respond st s).sensor = s.sensor := rfl
@[simp] theorem respond_dmux (st : Status) : (respond st s).dmux = s.dmux := rfl
@[simp] theorem respond_seq (st : Status) : (respond st s).seq = s.seq := rfl
@[simp] theorem respond_cmdPort (st : Status) : (respond st s).cmdPort = s.cmdPort := rfl
@[simp] theorem respond_evtPort (st : Status) : (respond st s).evtPort = s.evtPort := rfl
@[simp] theorem respond_busPort (st : Status) : (respond st s).busPort = s.busPort := rfl
@[simp] theorem respond_timerPort (st : Status) : (respond st s).timerPort = s.timerPort := rfl
@[simp] theorem respond_busOwed (st : Status) : (respond st s).busOwed = s.busOwed := rfl
@[simp] theorem respond_timerOwed (st : Status) : (respond st s).timerOwed = s.timerOwed := rfl
@[simp] theorem respond_turns (st : Status) : (respond st s).turns = s.turns := rfl
@[simp] theorem respond_supply (st : Status) : (respond st s).supply = s.supply := rfl
@[simp] theorem respond_ioFail (st : Status) : (respond st s).ioFail = s.ioFail := rfl
@[simp] theorem respond_out (st : Status) : (respond st s).out = .dmuxRsp st.code :: s.out := rfl

/-! ### dropBusOwed, dropTimerOwed -/

@[simp] theorem dropBusOwed_params : (dropBusOwed s).params = s.params := rfl
@[simp] theorem dropBusOwed_seq : (dropBusOwed s).seq = s.seq := rfl
@[simp] theorem dropBusOwed_dmux : (dropBusOwed s).dmux = s.dmux := rfl
@[simp] theorem dropBusOwed_sensor : (dropBusOwed s).sensor = s.sensor := rfl
@[simp] theorem dropBusOwed_cmdPort : (dropBusOwed s).cmdPort = s.cmdPort := rfl
@[simp] theorem dropBusOwed_evtPort : (dropBusOwed s).evtPort = s.evtPort := rfl
@[simp] theorem dropBusOwed_turns : (dropBusOwed s).turns = s.turns := rfl
@[simp] theorem dropBusOwed_supply : (dropBusOwed s).supply = s.supply := rfl
@[simp] theorem dropBusOwed_ioFail : (dropBusOwed s).ioFail = s.ioFail := rfl
@[simp] theorem dropBusOwed_out : (dropBusOwed s).out = s.out := rfl
@[simp] theorem dropBusOwed_busPort : (dropBusOwed s).busPort = s.busPort.drop s.busOwed := rfl
@[simp] theorem dropBusOwed_busOwed : (dropBusOwed s).busOwed = s.busOwed - s.busPort.length := rfl
@[simp] theorem dropBusOwed_timerPort : (dropBusOwed s).timerPort = s.timerPort := rfl
@[simp] theorem dropBusOwed_timerOwed : (dropBusOwed s).timerOwed = s.timerOwed := rfl
@[simp] theorem dropTimerOwed_params : (dropTimerOwed s).params = s.params := rfl
@[simp] theorem dropTimerOwed_seq : (dropTimerOwed s).seq = s.seq := rfl
@[simp] theorem dropTimerOwed_dmux : (dropTimerOwed s).dmux = s.dmux := rfl
@[simp] theorem dropTimerOwed_sensor : (dropTimerOwed s).sensor = s.sensor := rfl
@[simp] theorem dropTimerOwed_cmdPort : (dropTimerOwed s).cmdPort = s.cmdPort := rfl
@[simp] theorem dropTimerOwed_evtPort : (dropTimerOwed s).evtPort = s.evtPort := rfl
@[simp] theorem dropTimerOwed_turns : (dropTimerOwed s).turns = s.turns := rfl
@[simp] theorem dropTimerOwed_supply : (dropTimerOwed s).supply = s.supply := rfl
@[simp] theorem dropTimerOwed_ioFail : (dropTimerOwed s).ioFail = s.ioFail := rfl
@[simp] theorem dropTimerOwed_out : (dropTimerOwed s).out = s.out := rfl
@[simp] theorem dropTimerOwed_timerPort : (dropTimerOwed s).timerPort = s.timerPort - s.timerOwed := rfl
@[simp] theorem dropTimerOwed_timerOwed : (dropTimerOwed s).timerOwed = s.timerOwed - s.timerPort := rfl
@[simp] theorem dropTimerOwed_busPort : (dropTimerOwed s).busPort = s.busPort := rfl
@[simp] theorem dropTimerOwed_busOwed : (dropTimerOwed s).busOwed = s.busOwed := rfl

/-! ### forget -/

@[simp] theorem forget_params : (forget s).params = s.params := by
  unfold forget; split <;> rfl
@[simp] theorem forget_seq : (forget s).seq = s.seq := by
  unfold forget; split <;> rfl
@[simp] theorem forget_dmux : (forget s).dmux = s.dmux := by
  unfold forget; split <;> rfl
@[simp] theorem forget_sensor : (forget s).sensor = s.sensor := by
  unfold forget; split <;> rfl
@[simp] theorem forget_cmdPort : (forget s).cmdPort = s.cmdPort := by
  unfold forget; split <;> rfl
@[simp] theorem forget_evtPort : (forget s).evtPort = s.evtPort := by
  unfold forget; split <;> rfl
@[simp] theorem forget_turns : (forget s).turns = s.turns := by
  unfold forget; split <;> rfl
@[simp] theorem forget_supply : (forget s).supply = s.supply := by
  unfold forget; split <;> rfl
@[simp] theorem forget_ioFail : (forget s).ioFail = s.ioFail := by
  unfold forget; split <;> rfl
@[simp] theorem forget_out : (forget s).out = s.out := by
  unfold forget; split <;> rfl

theorem forget_of_none {s : State} (h : s.seq.pending = none) : forget s = s := by
  simp [forget, h]

theorem forget_of_delay {s : State} {n : Nat} (h : s.seq.pending = some (.delay n)) :
    forget s = dropTimerOwed { s with timerOwed := s.timerOwed + 1 } := by
  simp [forget, h]

theorem forget_of_bus {s : State} {r : Request} (h : s.seq.pending = some r) (hr : ∀ n, r ≠ .delay n) :
    forget s = dropBusOwed { s with busOwed := s.busOwed + 1 } := by
  cases r with
  | delay n => exact absurd rfl (hr n)
  | busTx _ _ _ => simp [forget, h]
  | busRx _ _ _ => simp [forget, h]

/-! ### resetBlock -/

@[simp] theorem resetBlock_params (p : Byte) (m a : Bool) : (resetBlock p m a s).params = s.params := by
  cases a <;> simp [resetBlock]
@[simp] theorem resetBlock_sensor (p : Byte) (m a : Bool) :
    (resetBlock p m a s).sensor = { s.sensor with ptr := p, standby := m } := by
  cases a <;> simp [resetBlock]
@[simp] theorem resetBlock_dmux (p : Byte) (m a : Bool) : (resetBlock p m a s).dmux = .reset := rfl
@[simp] theorem resetBlock_seq (p : Byte) (m a : Bool) : (resetBlock p m a s).seq = .reset := rfl
@[simp] theorem resetBlock_cmdPort (p : Byte) (m a : Bool) : (resetBlock p m a s).cmdPort = s.cmdPort := by
  cases a <;> simp [resetBlock]
@[simp] theorem resetBlock_evtPort (p : Byte) (m a : Bool) : (resetBlock p m a s).evtPort = s.evtPort := by
  cases a <;> simp [resetBlock]
@[simp] theorem resetBlock_turns (p : Byte) (m a : Bool) : (resetBlock p m a s).turns = s.turns := by
  cases a <;> simp [resetBlock]
@[simp] theorem resetBlock_supply (p : Byte) (m a : Bool) : (resetBlock p m a s).supply = s.supply := by
  cases a <;> simp [resetBlock]
@[simp] theorem resetBlock_ioFail (p : Byte) (m a : Bool) : (resetBlock p m a s).ioFail = s.ioFail := by
  cases a <;> simp [resetBlock]
@[simp] theorem resetBlock_out (p : Byte) (m a : Bool) : (resetBlock p m a s).out = s.out := by
  cases a <;> simp [resetBlock]

/-! ### arrive, replenish -/

@[simp] theorem arrive_params (a : Arrival) : (arrive a s).params = s.params := rfl
@[simp] theorem arrive_sensor (a : Arrival) : (arrive a s).sensor = s.sensor := rfl
@[simp] theorem arrive_dmux (a : Arrival) : (arrive a s).dmux = s.dmux := rfl
@[simp] theorem arrive_seq (a : Arrival) : (arrive a s).seq = s.seq := rfl
@[simp] theorem arrive_ioFail (a : Arrival) : (arrive a s).ioFail = s.ioFail := rfl
@[simp] theorem arrive_out (a : Arrival) : (arrive a s).out = s.out := rfl
@[simp] theorem arrive_supply (a : Arrival) : (arrive a s).supply = s.supply := rfl
@[simp] theorem arrive_cmdPort (a : Arrival) : (arrive a s).cmdPort = s.cmdPort ++ a.cmds := rfl
@[simp] theorem arrive_evtPort (a : Arrival) : (arrive a s).evtPort = s.evtPort ++ a.evts := rfl
@[simp] theorem arrive_busPort (a : Arrival) : (arrive a s).busPort = (s.busPort ++ a.outcomes).drop s.busOwed := rfl
@[simp] theorem arrive_busOwed (a : Arrival) : (arrive a s).busOwed = s.busOwed - (s.busPort ++ a.outcomes).length := rfl
@[simp] theorem arrive_timerPort (a : Arrival) : (arrive a s).timerPort = s.timerPort + a.delays - s.timerOwed := rfl
@[simp] theorem arrive_timerOwed (a : Arrival) : (arrive a s).timerOwed = s.timerOwed - (s.timerPort + a.delays) := rfl
@[simp] theorem arrive_turns (a : Arrival) : (arrive a s).turns = s.turns ++ a.turns := rfl
@[simp] theorem replenish_params : (replenish s).params = s.params := by
  unfold replenish; split <;> rfl
@[simp] theorem replenish_sensor : (replenish s).sensor = s.sensor := by
  unfold replenish; split <;> rfl
@[simp] theorem replenish_dmux : (replenish s).dmux = s.dmux := by
  unfold replenish; split <;> rfl
@[simp] theorem replenish_seq : (replenish s).seq = s.seq := by
  unfold replenish; split <;> rfl
@[simp] theorem replenish_ioFail : (replenish s).ioFail = s.ioFail := by
  unfold replenish; split <;> rfl
@[simp] theorem replenish_out : (replenish s).out = s.out := by
  unfold replenish; split <;> rfl

theorem replenish_of_ended {s : State} (h : s.supply = .ended) : replenish s = s := by
  simp [replenish, h]

theorem replenish_of_repeating {s : State} {round : Arrival} (h : s.supply = .repeating round) :
    replenish s = arrive round s := by
  simp [replenish, h]

theorem replenish_of_free {s : State} {next : Nat} (h : s.supply = .free next) :
    replenish s = arrive (Config.arrival next) { s with supply := .free (next + 1) } := by
  simp [replenish, h]

end Sys2Proof.Machine
end

