-- ==== Sys2Proof/Laws/Ops.lean ====
section
/-! SUPPORT. One lemma per shared operation that says everything it can do; later proofs cite these and do not unfold the
operations. -/

namespace Sys2Proof.Machine

variable {s t : State}

/-! ### What kind a turn is -/

@[simp] theorem isEvent_offer : Turn.offer.isEvent = false := rfl
@[simp] theorem isEvent_bus : Turn.bus.isEvent = false := rfl
@[simp] theorem isEvent_timer : Turn.timer.isEvent = false := rfl
@[simp] theorem isEvent_event (io : Bool) : (Turn.event io).isEvent = true := rfl
@[simp] theorem isEvent_sensor (temp : Byte) (rdy : Bool) : (Turn.sensor temp rdy).isEvent = false := rfl
@[simp] theorem isEvent_reset (ptr : Byte) (standby answered : Bool) : (Turn.reset ptr standby answered).isEvent = false := rfl
@[simp] theorem isReset_offer : Turn.offer.isReset = false := rfl
@[simp] theorem isReset_bus : Turn.bus.isReset = false := rfl
@[simp] theorem isReset_timer : Turn.timer.isReset = false := rfl
@[simp] theorem isReset_event (io : Bool) : (Turn.event io).isReset = false := rfl
@[simp] theorem isReset_sensor (temp : Byte) (rdy : Bool) : (Turn.sensor temp rdy).isReset = false := rfl
@[simp] theorem isReset_reset (ptr : Byte) (standby answered : Bool) : (Turn.reset ptr standby answered).isReset = true := rfl

/-! ### Which events answer a SEQ command -/

@[simp] theorem isRsp_rsp (w : RspWord) : (Output.rsp w).isRsp = true := rfl
@[simp] theorem isRsp_request (r : Request) : (Output.request r).isRsp = false := rfl
@[simp] theorem isRsp_dmuxRsp (w : DmuxRspWord) : (Output.dmuxRsp w).isRsp = false := rfl
@[simp] theorem isRsp_diag (v : Byte) : (Output.diag v).isRsp = false := rfl
@[simp] theorem isRsp_ioErr : Output.ioErr.isRsp = false := rfl

/-! ### Offers -/

theorem offered_idle (op : Op) (first : State → State) (h : s.seq.phase = .idle) :
    offered op first s = .next (first (accept op s)) := by
  simp [offered, h]

/-- An offer that answers a next state is taken in IDLE, or held without a change. -/
theorem offered_cases {op : Op} {first : State → State} (h : offered op first s = .next t) :
    (s.seq.phase = .idle ∧ t = first (accept op s)) ∨ (s.seq.phase ≠ .idle ∧ t = s) := by
  unfold offered at h
  split at h <;> cases h <;> simp_all

theorem offered_held (op : Op) (first : State → State) (h : s.seq.phase ≠ .idle) (h6 : s.seq.phase ≠ .code6)
    (h7 : s.seq.phase ≠ .code7) : offered op first s = .next s := by
  unfold offered
  split <;> simp_all

theorem offered_illegal (op : Op) (first : State → State) (h : s.seq.phase = .code6 ∨ s.seq.phase = .code7) :
    offered op first s = .fault (.phaseFault s.seq.phase.code) := by
  rcases h with h | h <;> simp [offered, h, Phase.code]

/-! ### The ROM and the digits -/

theorem rom_of_lt (p : Params) {i : Nat} (h : i < 16) : rom p i = .ok p.digitCode[i] := by
  simp [rom, h]

theorem rom_of_not_lt (p : Params) {i : Nat} (h : ¬ i < 16) : rom p i = .error (.romIndexFault i) := by
  simp [rom, h]

/-- 41_display_scheduler.md rule R152: a byte's digits in radix 16 are in range. -/
theorem hexDigits_lt (v : Byte) : tens v.toNat 16 < 16 ∧ units v.toNat 16 < 16 := by
  have := v.isLt
  simp only [tens, units]
  omega

theorem shownDigit_lt (flag : Bool) {d u n : Nat} (hd : d < n) (hu : u < n) : shownDigit flag d u < n := by
  cases flag <;> simpa [shownDigit]

theorem digitsOutOfRange_eq_false {v b : Nat} :
    digitsOutOfRange v b = false ↔ tens v b < 16 ∧ units v b < 16 := by
  simp [digitsOutOfRange]
  omega

/-! ### The refresh -/

/-- The state a successful refresh of in-range digits leaves. -/
def shown (v b : Nat) (ht : tens v b < 16) (hu : units v b < 16) (s : State) : State :=
  { s with dmux := refreshed (s.params.digitCode[shownDigit s.dmux.flag (tens v b) (units v b)]'(shownDigit_lt _ ht hu)) s.dmux }

/-- A refresh whose digits are in range fails in the output with nothing written, or succeeds. -/
theorem refresh_inRange {v b : Nat} (ht : tens v b < 16) (hu : units v b < 16) :
    refresh v b s =
      if s.params.ioFailPossible && s.ioFail then .ok (.ioError, emit .ioErr s) else .ok (.ok, shown v b ht hu s) := by
  simp [refresh, shown, rom_of_lt _ (shownDigit_lt _ ht hu)]

/-- What a refresh that returns can have done. -/
theorem refresh_cases {v b : Nat} {st : Status} (h : refresh v b s = .ok (st, t)) :
    (st = .ioError ∧ t = emit .ioErr s ∧ (s.params.ioFailPossible && s.ioFail) = true) ∨
      (st = .ok ∧ (s.params.ioFailPossible && s.ioFail) = false ∧
        ∃ pattern, t = { s with dmux := refreshed pattern s.dmux }) := by
  unfold refresh at h
  split at h
  · rename_i hio
    cases h
    exact .inl ⟨rfl, rfl, hio⟩
  · rename_i hio
    split at h
    · cases h
      exact .inr ⟨rfl, by simpa using hio, _, rfl⟩
    · cases h

/-! ### The DMUX events always answer a next state -/

/-- TICK_B, in full. -/
theorem execTickB_eq (s : State) :
    execTickB s = .next (takeEvent (if s.params.ioFailPossible && s.ioFail then emit .ioErr s
      else shown s.dmux.counter.toNat 16 (hexDigits_lt _).1 (hexDigits_lt _).2 s)) := by
  unfold execTickB Config.digitRadix
  rw [refresh_inRange (hexDigits_lt _).1 (hexDigits_lt _).2]
  cases s.params.ioFailPossible && s.ioFail <;> rfl

/-- UPDATE_DISPLAY whose digits are in range, in full. -/
theorem execUpdateDisplay_inRange {value base : Byte} (hb : base ≠ 0) (ht : tens value.toNat base.toNat < 16)
    (hu : units value.toNat base.toNat < 16) :
    execUpdateDisplay value base s = .next (takeEvent (if s.params.ioFailPossible && s.ioFail
      then respond .ioError (emit .ioErr s)
      else respond .ok (shown value.toNat base.toNat ht hu s))) := by
  unfold execUpdateDisplay
  rw [if_neg hb, digitsOutOfRange_eq_false.2 ⟨ht, hu⟩, refresh_inRange ht hu]
  cases s.params.ioFailPossible && s.ioFail <;> rfl

/-- What UPDATE_DISPLAY can do: it always answers a next state, and only a success writes DMUX. -/
theorem execUpdateDisplay_cases (value base : Byte) (s : State) :
    (∃ st, execUpdateDisplay value base s = .next (takeEvent (respond st s)) ∧ (st = .baseZero ∨ st = .rangeErr)) ∨
      ((s.params.ioFailPossible && s.ioFail) = true ∧
        execUpdateDisplay value base s = .next (takeEvent (respond .ioError (emit .ioErr s)))) ∨
      ∃ pattern, execUpdateDisplay value base s =
        .next (takeEvent (respond .ok { s with dmux := refreshed pattern s.dmux })) := by
  by_cases hb : base = 0
  · exact .inl ⟨.baseZero, by simp [execUpdateDisplay, hb], .inl rfl⟩
  · cases hr : digitsOutOfRange value.toNat base.toNat with
    | true => exact .inl ⟨.rangeErr, by rw [execUpdateDisplay, if_neg hb, hr]; rfl, .inr rfl⟩
    | false =>
      obtain ⟨ht, hu⟩ := digitsOutOfRange_eq_false.1 hr
      right
      rw [execUpdateDisplay_inRange hb ht hu]
      split
      · exact .inl ⟨‹_›, rfl⟩
      · exact .inr ⟨_, rfl⟩

/-! ### SEQ's answers -/

/-- What an answer of BUS can make SEQ do: one case per row of 40_sensor_sequencer.md rule R116. -/
theorem seqBusAnswer_cases {a : BusAnswer} (h : seqBusAnswer a s = some t) :
    (s.seq.phase = .tx ∧ a = .txOk ∧
      (((s.seq.op = .standby ∨ s.seq.op = .wakeup ∨ s.seq.op = .wakeupAndRead) ∧ t = delay 10 .settle s) ∨
        (s.seq.op = .readAfterConfig ∧ t = busRx .rxData s))) ∨
    (∃ b, s.seq.phase = .rxStatus ∧ a = .rxOk b ∧
      ((s.seq.op = .isReady ∧ t = complete .ok (isReadyByte b) 0x00 s) ∨
        (s.seq.op = .wakeupAndRead ∧ isReadyByte b = true ∧ t = busRx .rxData s) ∨
        (s.seq.op = .wakeupAndRead ∧ isReadyByte b = false ∧ t = pollNotReady s))) ∨
    (∃ b, s.seq.phase = .rxData ∧ a = .rxOk b ∧ t = complete .ok false b s) ∨
    ((s.seq.phase = .tx ∨ s.seq.phase = .rxStatus ∨ s.seq.phase = .rxData) ∧
      ((a = .busFail ∧ t = complete .busError false 0x00 s) ∨
        (a = .busTimeout ∧ t = complete .timeout false 0x00 s))) := by
  unfold seqBusAnswer at h
  split at h
  · rename_i hp
    unfold afterTx at h
    split at h <;> simp_all [Config.settleDelay]
  · rename_i b hp
    unfold afterStatus at h
    split at h <;> simp_all
    cases hb : isReadyByte b <;> simp_all
  all_goals simp_all

/-- What TIMER's answer can make SEQ do. -/
theorem seqDelayDone_cases (h : seqDelayDone s = some t) :
    (s.seq.phase = .settle ∧
      (((s.seq.op = .standby ∨ s.seq.op = .wakeup) ∧ t = complete .ok false 0x00 s) ∨
        (s.seq.op = .wakeupAndRead ∧ t = busRx .rxStatus s))) ∨
    (s.seq.phase = .pollWait ∧ t = busRx .rxStatus s) := by
  unfold seqDelayDone at h
  split at h
  · unfold afterSettle at h
    split at h <;> simp_all
  all_goals simp_all

/-- A not-ready poll is counted, and the command ends at the limit or waits. -/
theorem pollNotReady_cases (s : State) :
    (pollLimitMet s.params (s.seq.polls + 1) = true ∧
      pollNotReady s = complete .pollLimit false 0x00 { s with seq := { s.seq with polls := s.seq.polls + 1 } }) ∨
    (pollLimitMet s.params (s.seq.polls + 1) = false ∧
      pollNotReady s = delay 10 .pollWait { s with seq := { s.seq with polls := s.seq.polls + 1 } }) := by
  cases h : pollLimitMet s.params (s.seq.polls + 1) <;> simp [pollNotReady, h, Config.pollDelay]

theorem pollLimitMet_of_none {p : Params} (h : p.maxPolls = none) (n : Nat) : pollLimitMet p n = false := by
  simp [pollLimitMet, h]

theorem pollLimitMet_of_some {p : Params} {m : Nat} (h : p.maxPolls = some m) (n : Nat) :
    pollLimitMet p n = decide (m ≤ n) := by
  simp [pollLimitMet, h]

end Sys2Proof.Machine
end

