-- ==== Sys2Proof/Laws/Turns.lean ====
section
/-! SUPPORT. What each turn, and so a step, can do: one inversion lemma each, and the lemmas that unroll a run. -/

namespace Sys2Proof.Machine

variable {s t : State}

/-- SEQ's turn outside the two illegal codes is the result it is given. -/
theorem seqTurn_cases {r : Host.Outcome State Fault Refusal} (h : seqTurn s r = .next t) :
    s.seq.phase ≠ .code6 ∧ s.seq.phase ≠ .code7 ∧ r = .next t := by
  unfold seqTurn at h
  split at h <;> simp_all

theorem seqTurn_legal (r : Host.Outcome State Fault Refusal) (h6 : s.seq.phase ≠ .code6) (h7 : s.seq.phase ≠ .code7) :
    seqTurn s r = r := by
  unfold seqTurn
  split <;> simp_all

theorem seqTurn_illegal (r : Host.Outcome State Fault Refusal) (h : s.seq.phase = .code6 ∨ s.seq.phase = .code7) :
    seqTurn s r = .fault (.phaseFault s.seq.phase.code) := by
  rcases h with h | h <;> simp [seqTurn, h, Phase.code]

/-! ### What a turn does, where the unit can take what is presented -/

theorem offerTurn_of {w : CmdWord} {ws : List CmdWord} (h : s.cmdPort = w :: ws) : offerTurn s = exec (decodeCmd w) s := by
  simp [offerTurn, fetchCmd, h]

theorem busTurn_of {o : BusOutcome} {rest : List BusOutcome} {a : BusAnswer} {u : State} (hp : s.busPort = o :: rest)
    (h6 : s.seq.phase ≠ .code6) (h7 : s.seq.phase ≠ .code7) (ha : busAnswer s.params s.sensor o = some a)
    (hu : seqBusAnswer a s = some u) :
    busTurn s = .next { u with busPort := rest, sensor := sensorAfter s.params s.seq.pending o s.sensor } := by
  rw [busTurn, seqTurn_legal _ h6 h7, hp]
  simp only [ha, Option.bind_some, hu]

theorem timerTurn_of {n : Nat} {u : State} (hp : s.timerPort = n + 1) (h6 : s.seq.phase ≠ .code6)
    (h7 : s.seq.phase ≠ .code7) (hu : seqDelayDone s = some u) : timerTurn s = .next { u with timerPort := n } := by
  rw [timerTurn, seqTurn_legal _ h6 h7, hp]
  simp only [hu]

theorem eventTurn_of {w : EvtWord} {ws : List EvtWord} {i : Instr} (h : s.evtPort = w :: ws) (hd : decodeEvt w = .ok i) :
    eventTurn s = exec i s := by
  simp [eventTurn, h, hd]

/-! ### What a turn that answers a next state can have done -/

theorem offerTurn_cases (h : offerTurn s = .next t) :
    (s.cmdPort = [] ∧ t = s) ∨ ∃ w rest, s.cmdPort = w :: rest ∧ exec (decodeCmd w) s = .next t := by
  unfold offerTurn fetchCmd at h
  cases hp : s.cmdPort with
  | nil =>
    simp only [hp, List.head?_nil, Option.map_none] at h
    have := (seqTurn_cases h).2.2
    cases this
    exact .inl ⟨rfl, rfl⟩
  | cons w rest =>
    simp only [hp, List.head?_cons, Option.map_some] at h
    exact .inr ⟨w, rest, rfl, h⟩

/-- BUS's turn: no answer that SEQ waits for, or the answer consumed. -/
theorem busTurn_cases (h : busTurn s = .next t) :
    t = s ∨ ∃ o rest a u, s.busPort = o :: rest ∧ busAnswer s.params s.sensor o = some a ∧ seqBusAnswer a s = some u ∧
      t = { u with busPort := rest, sensor := sensorAfter s.params s.seq.pending o s.sensor } := by
  unfold busTurn at h
  obtain ⟨-, -, h⟩ := seqTurn_cases h
  split at h
  · cases h
    exact .inl rfl
  · rename_i o rest hp
    cases hb : busAnswer s.params s.sensor o with
    | none =>
      simp only [hb, Option.bind_none] at h
      cases h
      exact .inl rfl
    | some a =>
      cases hs : seqBusAnswer a s with
      | none =>
        simp only [hb, hs, Option.bind_some] at h
        cases h
        exact .inl rfl
      | some u =>
        simp only [hb, hs, Option.bind_some] at h
        cases h
        exact .inr ⟨o, rest, a, u, hp, hb, hs, rfl⟩

/-- TIMER's turn: no delay that SEQ waits for, or the answer consumed. -/
theorem timerTurn_cases (h : timerTurn s = .next t) :
    t = s ∨ ∃ n u, s.timerPort = n + 1 ∧ seqDelayDone s = some u ∧ t = { u with timerPort := n } := by
  unfold timerTurn at h
  obtain ⟨-, -, h⟩ := seqTurn_cases h
  split at h
  · cases h
    exact .inl rfl
  · rename_i n hp
    cases hs : seqDelayDone s with
    | none =>
      simp only [hs] at h
      cases h
      exact .inl rfl
    | some u =>
      simp only [hs] at h
      cases h
      exact .inr ⟨n, u, hp, rfl, rfl⟩

/-- DMUX's turn: nothing presented, a word that is no event, or an event. -/
theorem eventTurn_cases (h : eventTurn s = .next t) :
    (s.evtPort = [] ∧ t = s) ∨
      (∃ w rest r, s.evtPort = w :: rest ∧ decodeEvt w = .error r ∧ t = takeEvent s) ∨
      ∃ w rest i, s.evtPort = w :: rest ∧ decodeEvt w = .ok i ∧ exec i s = .next t := by
  unfold eventTurn at h
  cases hp : s.evtPort with
  | nil =>
    simp only [hp] at h
    cases h
    exact .inl ⟨rfl, rfl⟩
  | cons w rest =>
    simp only [hp] at h
    cases hd : decodeEvt w with
    | error r =>
      simp only [hd] at h
      cases h
      exact .inr (.inl ⟨w, rest, r, rfl, hd, rfl⟩)
    | ok i =>
      simp only [hd] at h
      exact .inr (.inr ⟨w, rest, i, rfl, hd, h⟩)

/-- A step is the turn at the head of the schedule, or the agents' own. -/
theorem step_cases {r : Host.Outcome State Fault Refusal} (h : step s = r) :
    (s.turns = [] ∧ r = .next (replenish s)) ∨ ∃ tn rest, s.turns = tn :: rest ∧ turnStep tn { s with turns := rest } = r := by
  unfold step nextTurn at h
  cases ht : s.turns with
  | nil =>
    simp only [ht] at h
    exact .inl ⟨rfl, h.symm⟩
  | cons tn rest =>
    simp only [ht] at h
    exact .inr ⟨tn, rest, rfl, h⟩

theorem step_of_turn {tn : Turn} {rest : List Turn} (h : s.turns = tn :: rest) :
    step s = turnStep tn { s with turns := rest } := by
  simp [step, nextTurn, h]

theorem step_of_noTurn (h : s.turns = []) : step s = .next (replenish s) := by
  simp [step, nextTurn, h]

/-- An event word that decodes is one of the three events. -/
theorem decodeEvt_cases {w : EvtWord} {i : Instr} (h : decodeEvt w = .ok i) :
    (i = .tickA ∧ evtKind w = 1) ∨ (i = .tickB ∧ evtKind w = 2) ∨
      (i = .updateDisplay (evtValue w) (evtBase w) ∧ evtKind w = 3) := by
  unfold decodeEvt at h
  split at h <;> simp_all

/-! ### Runs -/

theorem runs_zero : Runs 0 s t ↔ s = t :=
  ⟨fun h => Host.Outcome.next.inj h, fun h => h ▸ rfl⟩

theorem core_run_succ (n : Nat) (s : Sys2Proof.core.State) :
    Host.Core.run Sys2Proof.core (n + 1) s =
      match Sys2Proof.core.step s with
      | .next u => Host.Core.run Sys2Proof.core n u
      | .fault r => .fault r
      | .refused r => .refused r := by
  rw [Host.Core.run]
  cases Sys2Proof.core.step s <;> rfl

theorem runs_succ (n : Nat) : Runs (n + 1) s t ↔ ∃ u, step s = .next u ∧ Runs n u t := by
  unfold Runs
  rw [core_run_succ n s]
  change (match step s with
    | .next u => Host.Core.run Sys2Proof.core n u
    | .fault r => .fault r
    | .refused r => .refused r) = _ ↔ _
  cases step s <;> simp

end Sys2Proof.Machine
end

