-- ==== Sys2Proof/Laws/Exec.lean ====
section
/-! SUPPORT. What an instruction, a turn and a step can do, said once: the cases of a SEQ command and of a DMUX event, and the
frame of each turn. -/

namespace Sys2Proof.Machine

variable {s t : State}

theorem decodeCmd_isCommand (w : CmdWord) : (decodeCmd w).isCommand = true := by
  revert w
  decide

theorem decodeEvt_isEvent {w : EvtWord} {i : Instr} (h : decodeEvt w = .ok i) : i.isCommand = false := by
  rcases decodeEvt_cases h with ⟨rfl, -⟩ | ⟨rfl, -⟩ | ⟨rfl, -⟩ <;> rfl

/-! ### Instructions -/

/-- A SEQ command is held, or accepted in IDLE with its own first action (40_sensor_sequencer.md rule R116). -/
theorem exec_command_cases {i : Instr} (hi : i.isCommand = true) (h : exec i s = .next t) :
    t = s ∨ s.seq.phase = .idle ∧
      ((i = .reserved000 ∧ t = complete .illegalCmd false 0x00 (accept .reserved000 s)) ∨
        (i = .standby ∧ t = busTx [s.params.cfgReg, 0x80] (accept .standby s)) ∨
        (i = .wakeup ∧ t = busTx [s.params.cfgReg, 0x00] (accept .wakeup s)) ∨
        (i = .isReady ∧ t = busRx .rxStatus (accept .isReady s)) ∨
        (i = .wakeupAndRead ∧ t = busTx [s.params.cfgReg, 0x00] (accept .wakeupAndRead s)) ∨
        (i = .readAfterConfig ∧ t = busTx [0x00] (accept .readAfterConfig s)) ∨
        (i = .readAfterTemp ∧ t = busRx .rxData (accept .readAfterTemp s)) ∨
        (i = .reserved111 ∧ t = complete .illegalCmd false 0x00 (accept .reserved111 s))) := by
  cases i <;> simp only [Instr.isCommand, Bool.false_eq_true] at hi
  all_goals
    rcases offered_cases h with ⟨h1, h2⟩ | ⟨-, h2⟩
    · exact .inr ⟨h1, by simp [h2, frameStandby, frameWake, frameSelTemp, Config.standbyValue, Config.wakeValue,
        Config.tempReg]⟩
    · exact .inl h2

/-- A SEQ command in a legal phase answers a next state. -/
theorem exec_command_total {i : Instr} (hi : i.isCommand = true) (h6 : s.seq.phase ≠ .code6) (h7 : s.seq.phase ≠ .code7) :
    ∃ t, exec i s = .next t := by
  by_cases h : s.seq.phase = .idle
  · cases i <;> simp only [Instr.isCommand, Bool.false_eq_true] at hi
    all_goals exact ⟨_, offered_idle _ _ h⟩
  · cases i <;> simp only [Instr.isCommand, Bool.false_eq_true] at hi
    all_goals exact ⟨_, offered_held _ _ h h6 h7⟩

/-- A SEQ command leaves DMUX, the sensor, the parameters and every port but its own alone. -/
theorem exec_command_frame {i : Instr} (hi : i.isCommand = true) (h : exec i s = .next t) :
    t.params = s.params ∧ t.dmux = s.dmux ∧ t.sensor = s.sensor ∧ t.evtPort = s.evtPort ∧ t.busPort = s.busPort ∧
      t.timerPort = s.timerPort ∧ t.turns = s.turns ∧ t.supply = s.supply ∧ t.ioFail = s.ioFail ∧
      t.busOwed = s.busOwed ∧ t.timerOwed = s.timerOwed := by
  cases i <;> simp only [Instr.isCommand, Bool.false_eq_true] at hi
  all_goals
    obtain ⟨-, h⟩ | ⟨-, h⟩ := offered_cases h
    · simp [h]
    · simp [h]

/-- A DMUX event answers a next state that keeps everything but DMUX, its port and what is emitted; DMUX is then counted up,
left alone or refreshed, and neither a request nor a SEQ response is emitted. -/
theorem exec_event_cases {i : Instr} (hi : i.isCommand = false) (s : State) :
    ∃ d outs, exec i s = .next { s with dmux := d, evtPort := s.evtPort.tail, out := outs ++ s.out } ∧
      (∀ o ∈ outs, (∀ r, o ≠ .request r) ∧ ∀ w, o ≠ .rsp w) ∧
      ((i = .tickA ∧ d = { s.dmux with counter := s.dmux.counter + 1 }) ∨
        (i ≠ .tickA ∧ (d = s.dmux ∨ ∃ pattern, d = refreshed pattern s.dmux))) := by
  cases i <;> simp only [Instr.isCommand, Bool.true_eq_false] at hi
  case tickA => exact ⟨_, [_], rfl, by simp, .inl ⟨rfl, rfl⟩⟩
  case tickB =>
    cases h : s.params.ioFailPossible && s.ioFail
    · exact ⟨_, [], by rw [show exec .tickB s = _ from execTickB_eq s, h]; rfl, by simp, .inr ⟨by simp, .inr ⟨_, rfl⟩⟩⟩
    · exact ⟨_, [_], by rw [show exec .tickB s = _ from execTickB_eq s, h]; rfl, by simp, .inr ⟨by simp, .inl rfl⟩⟩
  case updateDisplay v b =>
    rcases execUpdateDisplay_cases v b s with ⟨st, h, -⟩ | ⟨-, h⟩ | ⟨pattern, h⟩
    · exact ⟨_, [_], h, by simp, .inr ⟨by simp, .inl rfl⟩⟩
    · exact ⟨_, [_, _], h, by simp, .inr ⟨by simp, .inl rfl⟩⟩
    · exact ⟨_, [_], h, by simp, .inr ⟨by simp, .inr ⟨_, rfl⟩⟩⟩

/-! ### SEQ's answers -/

theorem seqBusAnswer_frame {a : BusAnswer} (h : seqBusAnswer a s = some t) :
    t.params = s.params ∧ t.dmux = s.dmux ∧ t.sensor = s.sensor ∧ t.cmdPort = s.cmdPort ∧ t.evtPort = s.evtPort ∧
      t.busPort = s.busPort ∧ t.timerPort = s.timerPort ∧ t.turns = s.turns ∧ t.supply = s.supply ∧
      t.ioFail = s.ioFail ∧ t.seq.op = s.seq.op ∧ t.busOwed = s.busOwed ∧ t.timerOwed = s.timerOwed := by
  rcases seqBusAnswer_cases h with ⟨-, -, ⟨-, rfl⟩ | ⟨-, rfl⟩⟩ | ⟨b, -, -, ⟨-, rfl⟩ | ⟨-, -, rfl⟩ | ⟨-, -, rfl⟩⟩ |
    ⟨b, -, -, rfl⟩ | ⟨-, ⟨-, rfl⟩ | ⟨-, rfl⟩⟩
  case inr.inl.inr.inr => rcases pollNotReady_cases s with ⟨-, h⟩ | ⟨-, h⟩ <;> rw [h] <;> simp
  all_goals simp

theorem seqDelayDone_frame (h : seqDelayDone s = some t) :
    t.params = s.params ∧ t.dmux = s.dmux ∧ t.sensor = s.sensor ∧ t.cmdPort = s.cmdPort ∧ t.evtPort = s.evtPort ∧
      t.busPort = s.busPort ∧ t.timerPort = s.timerPort ∧ t.turns = s.turns ∧ t.supply = s.supply ∧
      t.ioFail = s.ioFail ∧ t.seq.op = s.seq.op ∧ t.busOwed = s.busOwed ∧ t.timerOwed = s.timerOwed := by
  rcases seqDelayDone_cases h with ⟨-, ⟨-, rfl⟩ | ⟨-, rfl⟩⟩ | ⟨-, rfl⟩ <;> simp

/-! ### Turns -/

/-- A turn of SEQ leaves DMUX, its port, the parameters and the schedule alone. -/
theorem seqUnit_frame {tn : Turn} (hs : tn = .offer ∨ tn = .bus ∨ tn = .timer) (h : turnStep tn s = .next t) :
    t.params = s.params ∧ t.dmux = s.dmux ∧ t.evtPort = s.evtPort ∧ t.turns = s.turns ∧ t.supply = s.supply ∧
      t.ioFail = s.ioFail ∧ t.busOwed = s.busOwed ∧ t.timerOwed = s.timerOwed := by
  rcases hs with rfl | rfl | rfl
  · rcases offerTurn_cases h with ⟨-, rfl⟩ | ⟨w, ws, -, h⟩
    · simp
    · have := exec_command_frame (decodeCmd_isCommand w) h
      simp_all
  · rcases busTurn_cases h with rfl | ⟨o, bs, a, u, -, -, hs, rfl⟩
    · simp
    · have := seqBusAnswer_frame hs
      simp_all
  · rcases timerTurn_cases h with rfl | ⟨n, u, -, hs, rfl⟩
    · simp
    · have := seqDelayDone_frame hs
      simp_all

/-- A turn of DMUX keeps everything but DMUX, its port, its draw and what is emitted. -/
theorem eventTurn_spec (s : State) :
    ∃ d outs, eventTurn s = .next { s with dmux := d, evtPort := s.evtPort.tail, out := outs ++ s.out } ∧
      (∀ o ∈ outs, (∀ r, o ≠ .request r) ∧ ∀ w, o ≠ .rsp w) ∧
      (d = s.dmux ∨ ∃ w ws i, s.evtPort = w :: ws ∧ decodeEvt w = .ok i ∧
        ((i = .tickA ∧ d = { s.dmux with counter := s.dmux.counter + 1 }) ∨
          (i ≠ .tickA ∧ ∃ pattern, d = refreshed pattern s.dmux))) := by
  cases hp : s.evtPort with
  | nil => exact ⟨s.dmux, [], by simp only [eventTurn, hp, List.tail_nil, List.nil_append]; rw [← hp], by simp, .inl rfl⟩
  | cons w ws =>
    cases hd : decodeEvt w with
    | error r => exact ⟨s.dmux, [], by simp [eventTurn, hp, hd, takeEvent], by simp, .inl rfl⟩
    | ok i =>
      obtain ⟨d, outs, h, ho, hc⟩ := exec_event_cases (decodeEvt_isEvent hd) s
      refine ⟨d, outs, by rw [eventTurn_of hp hd, h, hp], ho, ?_⟩
      rcases hc with hc | ⟨hne, hc | hc⟩
      · exact .inr ⟨w, ws, i, rfl, hd, .inl hc⟩
      · exact .inl hc
      · exact .inr ⟨w, ws, i, rfl, hd, .inr ⟨hne, hc⟩⟩

/-- In a legal phase every turn answers a next state. -/
theorem turnStep_total (tn : Turn) (h6 : s.seq.phase ≠ .code6) (h7 : s.seq.phase ≠ .code7) :
    ∃ t, turnStep tn s = .next t := by
  cases tn with
  | offer =>
    show ∃ t, offerTurn s = _
    cases hp : s.cmdPort with
    | nil => exact ⟨s, by simp [offerTurn, fetchCmd, hp, seqTurn_legal _ h6 h7]⟩
    | cons w ws =>
      rw [offerTurn_of hp]
      exact exec_command_total (decodeCmd_isCommand w) h6 h7
  | bus =>
    show ∃ t, busTurn s = _
    rw [busTurn, seqTurn_legal _ h6 h7]
    split
    · exact ⟨_, rfl⟩
    · split <;> exact ⟨_, rfl⟩
  | timer =>
    show ∃ t, timerTurn s = _
    rw [timerTurn, seqTurn_legal _ h6 h7]
    split
    · exact ⟨_, rfl⟩
    · split <;> exact ⟨_, rfl⟩
  | event io =>
    obtain ⟨d, outs, h, -⟩ := eventTurn_spec { s with ioFail := io }
    exact ⟨_, h⟩
  | sensor _ _ => exact ⟨_, rfl⟩
  | reset _ _ _ => exact ⟨_, rfl⟩

end Sys2Proof.Machine
end

