-- ==== Sys2Proof/Laws/PerInstr.lean ====
section
/-! SUPPORT. A statement about every instruction as syntax, one lemma per constructor: its word carries the fixed bits of its
row of spec/opcode_table.json. -/

namespace Sys2Proof.Laws.FixedBits

/-- The word an instruction is encoded to meets its table row's mask and match, on the port of the row's format. -/
def Statement (i : Instr) : Prop :=
  match i, encode i with
  | .reserved000, .cmd w => w &&& 0x7 = 0x0
  | .standby, .cmd w => w &&& 0x7 = 0x1
  | .wakeup, .cmd w => w &&& 0x7 = 0x2
  | .isReady, .cmd w => w &&& 0x7 = 0x3
  | .wakeupAndRead, .cmd w => w &&& 0x7 = 0x4
  | .readAfterConfig, .cmd w => w &&& 0x7 = 0x5
  | .readAfterTemp, .cmd w => w &&& 0x7 = 0x6
  | .reserved111, .cmd w => w &&& 0x7 = 0x7
  | .tickA, .evt w => w &&& 0x00003 = 0x00001
  | .tickB, .evt w => w &&& 0x00003 = 0x00002
  | .updateDisplay _ _, .evt w => w &&& 0x00003 = 0x00003
  | _, _ => False

theorem reserved000 : Statement .reserved000 := rfl
theorem standby : Statement .standby := rfl
theorem wakeup : Statement .wakeup := rfl
theorem isReady : Statement .isReady := rfl
theorem wakeupAndRead : Statement .wakeupAndRead := rfl
theorem readAfterConfig : Statement .readAfterConfig := rfl
theorem readAfterTemp : Statement .readAfterTemp := rfl
theorem reserved111 : Statement .reserved111 := rfl
theorem tickA : Statement .tickA := rfl
theorem tickB : Statement .tickB := rfl

theorem updateDisplay (value base : Byte) : Statement (.updateDisplay value base) := by
  show evtWord 3 value base &&& 0x00003 = 0x00003
  apply BitVec.eq_of_getLsbD_eq
  intro i hi
  rw [evtWord, BitVec.getLsbD_and, BitVec.getLsbD_append]
  interval_cases i <;> simp

end Sys2Proof.Laws.FixedBits
end

