-- ==== Sys2Proof/Laws/Step.lean ====
section
/-! SUPPORT. What a step can do, said once: to the schedule, to SEQ and to DMUX; and how steps make a run. -/

namespace Sys2Proof.Machine

variable {s t u : State}

/-! ### A step on a turn that can be taken -/

theorem step_offer {w : CmdWord} {ws : List CmdWord} {ts : List Turn} (ht : s.turns = .offer :: ts)
    (hc : s.cmdPort = w :: ws) : step s = exec (decodeCmd w) { s with turns := ts } :=
  (step_of_turn ht).trans (offerTurn_of (s := { s with turns := ts }) hc)

theorem step_bus {o : BusOutcome} {bs : List BusOutcome} {a : BusAnswer} {ts : List Turn} (ht : s.turns = .bus :: ts)
    (hb : s.busPort = o :: bs) (h6 : s.seq.phase ≠ .code6) (h7 : s.seq.phase ≠ .code7)
    (ha : busAnswer s.params s.sensor o = some a) (hu : seqBusAnswer a { s with turns := ts } = some u) :
    step s = .next { u with busPort := bs, sensor := sensorAfter s.params s.seq.pending o s.sensor } :=
  (step_of_turn ht).trans (busTurn_of (s := { s with turns := ts }) hb h6 h7 ha hu)

theorem step_timer {n : Nat} {ts : List Turn} (ht : s.turns = .timer :: ts) (hn : s.timerPort = n + 1)
    (h6 : s.seq.phase ≠ .code6) (h7 : s.seq.phase ≠ .code7) (hu : seqDelayDone { s with turns := ts } = some u) :
    step s = .next { u with timerPort := n } :=
  (step_of_turn ht).trans (timerTurn_of (s := { s with turns := ts }) hn h6 h7 hu)

/-- In a legal phase every step answers a next state. -/
theorem step_total (h6 : s.seq.phase ≠ .code6) (h7 : s.seq.phase ≠ .code7) : ∃ t, step s = .next t := by
  unfold step nextTurn
  cases s.turns with
  | nil => exact ⟨_, rfl⟩
  | cons tn rest => exact turnStep_total (s := { s with turns := rest }) tn h6 h7

/-! ### The frames of a step -/

/-- A step on a turn of SEQ leaves DMUX, its port and the parameters alone. -/
theorem step_seqUnit_frame {tn : Turn} {rest : List Turn} (ht : s.turns = tn :: rest)
    (hs : tn = .offer ∨ tn = .bus ∨ tn = .timer) (h : step s = .next t) :
    t.dmux = s.dmux ∧ t.params = s.params ∧ t.evtPort = s.evtPort ∧ t.turns = rest ∧ t.supply = s.supply := by
  rw [step_of_turn ht] at h
  have := seqUnit_frame hs h
  simp_all

/-- A step on an event leaves SEQ, the sensor, the parameters and SEQ's ports alone, emits no request and no SEQ response,
and writes DMUX as one of its events does. -/
theorem step_event_frame {io : Bool} {rest : List Turn} (ht : s.turns = .event io :: rest) (h : step s = .next t) :
    t.seq = s.seq ∧ t.params = s.params ∧ t.sensor = s.sensor ∧ t.cmdPort = s.cmdPort ∧ t.busPort = s.busPort ∧
      t.timerPort = s.timerPort ∧ t.turns = rest ∧ t.supply = s.supply ∧ t.evtPort = s.evtPort.tail ∧
      (∃ new, t.out = new ++ s.out ∧ ∀ o ∈ new, (∀ r, o ≠ .request r) ∧ ∀ w, o ≠ .rsp w) ∧
      (t.dmux = s.dmux ∨ ∃ w ws i, s.evtPort = w :: ws ∧ decodeEvt w = .ok i ∧
        ((i = .tickA ∧ t.dmux = { s.dmux with counter := s.dmux.counter + 1 }) ∨
          (i ≠ .tickA ∧ ∃ pattern, t.dmux = refreshed pattern s.dmux))) := by
  rw [step_of_turn ht] at h
  obtain ⟨d, outs, h', ho, hc⟩ := eventTurn_spec { s with turns := rest, ioFail := io }
  rw [show turnStep (.event io) { s with turns := rest } = eventTurn { s with turns := rest, ioFail := io } from rfl, h'] at h
  cases h
  refine ⟨?_, ?_, ?_, ?_, ?_, ?_, ?_, ?_, ?_, ⟨outs, rfl, ho⟩, hc⟩ <;> rfl

/-- A step keeps the parameters. -/
theorem step_params (h : step s = .next t) : t.params = s.params := by
  have h0 := h
  rcases step_cases h with ⟨-, h⟩ | ⟨tn, rest, ht, h⟩
  · cases h
    simp
  cases tn with
  | offer => exact (step_seqUnit_frame ht (by simp) h0).2.1
  | bus => exact (step_seqUnit_frame ht (by simp) h0).2.1
  | timer => exact (step_seqUnit_frame ht (by simp) h0).2.1
  | event io => exact (step_event_frame ht h0).2.1
  | sensor _ _ =>
    cases h
    rfl
  | reset _ _ _ =>
    cases h
    simp

/-- A step on a turn that is no reset leaves what is owed alone. -/
theorem step_owed {tn : Turn} {rest : List Turn} (ht : s.turns = tn :: rest) (hr : tn.isReset = false)
    (h : step s = .next t) : t.busOwed = s.busOwed ∧ t.timerOwed = s.timerOwed := by
  rw [step_of_turn ht] at h
  cases tn with
  | offer => exact (seqUnit_frame (by simp) h).2.2.2.2.2.2
  | bus => exact (seqUnit_frame (by simp) h).2.2.2.2.2.2
  | timer => exact (seqUnit_frame (by simp) h).2.2.2.2.2.2
  | event io =>
    obtain ⟨d, outs, h', -⟩ := eventTurn_spec { s with turns := rest, ioFail := io }
    cases h'.symm.trans h
    exact ⟨rfl, rfl⟩
  | sensor _ _ =>
    cases h
    exact ⟨rfl, rfl⟩
  | reset _ _ _ => simp at hr

/-- A step takes the head of the schedule, and leaves the supply alone while there is one to take. -/
theorem step_turns {tn : Turn} {rest : List Turn} (ht : s.turns = tn :: rest) (h : step s = .next t) :
    t.turns = rest ∧ t.supply = s.supply := by
  have h0 := h
  rw [step_of_turn ht] at h
  cases tn with
  | offer => exact (step_seqUnit_frame ht (by simp) h0).2.2.2
  | bus => exact (step_seqUnit_frame ht (by simp) h0).2.2.2
  | timer => exact (step_seqUnit_frame ht (by simp) h0).2.2.2
  | event io =>
    have := step_event_frame ht h0
    simp [this]
  | sensor _ _ =>
    cases h
    exact ⟨rfl, rfl⟩
  | reset _ _ _ =>
    cases h
    simp

/-- What a step can do to DMUX: reset it, leave it alone, or take an event. -/
theorem step_dmux (h : step s = .next t) :
    (∃ ptr standby ans ts, s.turns = .reset ptr standby ans :: ts ∧ t.dmux = .reset ∧ t.evtPort = s.evtPort) ∨
      (t.dmux = s.dmux ∧ (∀ io ts, s.turns ≠ .event io :: ts) ∧ (s.turns = [] ∧ t = replenish s ∨ t.evtPort = s.evtPort)) ∨
      ∃ io ts, s.turns = .event io :: ts := by
  have h0 := h
  rcases step_cases h with ⟨ht, h⟩ | ⟨tn, rest, ht, h⟩
  · cases h
    exact .inr (.inl ⟨by simp, by simp [ht], .inl ⟨ht, rfl⟩⟩)
  cases tn with
  | offer =>
    have := step_seqUnit_frame ht (by simp) h0
    exact .inr (.inl ⟨this.1, by simp [ht], .inr this.2.2.1⟩)
  | bus =>
    have := step_seqUnit_frame ht (by simp) h0
    exact .inr (.inl ⟨this.1, by simp [ht], .inr this.2.2.1⟩)
  | timer =>
    have := step_seqUnit_frame ht (by simp) h0
    exact .inr (.inl ⟨this.1, by simp [ht], .inr this.2.2.1⟩)
  | event io => exact .inr (.inr ⟨io, rest, ht⟩)
  | sensor _ _ =>
    cases h
    exact .inr (.inl ⟨rfl, by simp [ht], .inr rfl⟩)
  | reset ptr standby ans =>
    cases h
    exact .inl ⟨ptr, standby, ans, rest, ht, rfl, by simp⟩

/-! ### Runs -/

theorem runs_cons {n : Nat} (h : step s = .next t) (h' : Runs n t u) : Runs (n + 1) s u :=
  (runs_succ n).2 ⟨t, h, h'⟩

theorem runs_trans {a b : Nat} (h : Runs a s t) (h' : Runs b t u) : Runs (a + b) s u := by
  induction a generalizing s with
  | zero =>
    rw [runs_zero.1 h]
    simpa using h'
  | succ a ih =>
    obtain ⟨v, hv, h⟩ := (runs_succ a).1 h
    rw [show a + 1 + b = (a + b) + 1 by omega]
    exact runs_cons hv (ih h)

end Sys2Proof.Machine
end

