-- ==== Sys2Proof/Tests/Slice0.lean ====
section
/-! SUPPORT. The model's own tests: the well-formedness smoke, a word written out for every instruction, one step of each
instruction, and a witness for the hypotheses of each statement. Expected results come from spec/95_test_vectors.md (the row is
named at each test) or from the rule named there. Each `witness_X` shows states that meet the hypotheses of `Obligations.X`. -/

namespace Sys2Proof.Tests

open Sys2Proof Sys2Proof.Machine

/-! ### States to test on -/

/-- A build with CFG_REG = 0x01, a finite bus timeout told apart, at most 3 polls and outputs that can fail. -/
def build : Params where
  cfgReg := 0x01
  devAddr := 0x48
  busClkHz := 100000
  timeUnit := 1
  dataPin := 4
  clockPin := 5
  segPin := #v[6, 7, 8, 9, 10, 11, 12, 13]
  enPin := #v[14, 15]
  maxPolls := some 3
  busTimeout := .bounded 10
  timeoutDistinct := true
  digitCode := Config.defaultDigitCode
  enActiveLevel := true
  segOnLevel := true
  ioFailPossible := true

/-- The block after reset, in that build, beside an awake sensor that reads 0x19. -/
def base : State where
  params := build
  seq := .reset
  dmux := .reset
  sensor := { ptr := 0x00, standby := false, temp := 0x19, rdy := true }
  cmdPort := []
  evtPort := []
  busPort := []
  timerPort := 0
  busOwed := 0
  timerOwed := 0
  turns := []
  supply := .ended
  ioFail := false
  out := []

/-- SEQ inside a command. -/
def during (phase : Phase) (op : Op) (polls : Nat) : State :=
  { base with seq := { base.seq with phase := phase, op := op, polls := polls, pending := pendingOf build phase op } }

/-- HOST offers these command words, the first one looked at next. -/
def offering (words : List CmdWord) (s : State) : State := { s with cmdPort := words, turns := .offer :: s.turns }

/-- BUS answers with these outcomes, the first one looked at next. -/
def answered (outcomes : List BusOutcome) (s : State) : State := { s with busPort := outcomes, turns := .bus :: s.turns }

/-- TIMER answers, and SEQ looks at it next. -/
def delayOver (s : State) : State := { s with timerPort := 1, turns := .timer :: s.turns }

/-- An event is presented, with the draw of io_fail. -/
def presented (w : EvtWord) (ioFail : Bool) (s : State) : State :=
  { s with evtPort := [w], turns := .event ioFail :: s.turns }

/-- DMUX with these registers. -/
def showing (counter : Byte) (flag en0 en1 : Bool) (seg : Byte) : State :=
  { base with dmux := { counter := counter, flag := flag, en0 := en0, en1 := en1, seg := seg } }

/-- The same state in a build where MAX_POLLS and BUS_TIMEOUT have their defaults. -/
def unbounded (s : State) : State := { s with params := { s.params with maxPolls := none, busTimeout := .infinite } }

/-- The next state, where there is one. -/
def after : Host.Outcome State Fault Refusal → Option State
  | .next s => some s
  | .fault _ | .refused _ => none

/-- What the step leaves of SEQ and the last event it emitted. -/
def seqAfter (s : State) : Option (Phase × Rsp × Option Output) :=
  (after (step s)).map fun t => (t.seq.phase, t.seq.rsp, t.out.head?)

/-- What the step leaves of DMUX and what it emitted. -/
def dmuxAfter (s : State) : Option (Dmux × List Output) := (after (step s)).map fun t => (t.dmux, t.out)

/-! ### Well-formedness: each check refuses an ill-formed term -/

/-- 30_encoding.md rule R101: an operand is at most 255. -/
theorem test_operand_above_255_refused : operandOk 255 = true ∧ operandOk 256 = false := by decide
theorem test_line_with_wide_value_refused : updateDisplayLine 256 10 = none := by decide
theorem test_line_with_wide_base_refused : updateDisplayLine 99 256 = none := by decide
theorem test_line_accepted : updateDisplayLine 99 10 = some (.updateDisplay 0x63 0x0A) := by decide
/-- 00_scope.md rule R12: a frame is 1 or 2 bytes. -/
theorem test_frame_lengths : frameOk [] = false ∧ frameOk [1, 2, 3] = false ∧ frameOk [1, 0x80] = true := by decide
/-- 00_scope.md rule R9: MAX_POLLS = some m needs m >= 1. -/
theorem test_poll_limit_zero_refused : ({ build with maxPolls := some 0 } : Params).ok = false ∧ build.ok = true := by
  decide

/-! ### Decoding: words written out bit by bit from 30_encoding.md rules R91, R92 -/

theorem test_decode_commands :
    decodeCmd 0b000 = .reserved000 ∧ decodeCmd 0b001 = .standby ∧ decodeCmd 0b010 = .wakeup ∧
    decodeCmd 0b011 = .isReady ∧ decodeCmd 0b100 = .wakeupAndRead ∧ decodeCmd 0b101 = .readAfterConfig ∧
    decodeCmd 0b110 = .readAfterTemp ∧ decodeCmd 0b111 = .reserved111 := by decide
/-- W4: kind 00 is no event, whatever the other bits. -/
theorem test_decode_no_event : decodeEvt 0b000000000000000000 = .error .noEvent ∧
    decodeEvt 0b111111111111111100 = .error .noEvent := ⟨rfl, rfl⟩
/-- W5, W7: the operand bits of a tick are ignored. -/
theorem test_decode_tickA : decodeEvt 0b000000000000000001 = .ok .tickA ∧
    decodeEvt 0b111111111111111101 = .ok .tickA := ⟨rfl, rfl⟩
/-- W6. -/
theorem test_decode_tickB : decodeEvt 0b000000000000000010 = .ok .tickB := rfl
/-- W8, M37: base 00001010, value 01100011, kind 11; base 11111111, value 00000101. -/
theorem test_decode_updateDisplay : decodeEvt 0b000010100110001111 = .ok (.updateDisplay 99 10) ∧
    decodeEvt 0b111111110000010111 = .ok (.updateDisplay 5 255) := ⟨rfl, rfl⟩
/-- The rows of opcode_table.json, numbered as it numbers them: UPDATE_DISPLAY 99, 10 is 0x0298F. -/
theorem test_decode_table : decodeTableWord 8 0x1 = some .standby ∧ decodeTableWord 24 0x00001 = some .tickA ∧
    decodeTableWord 24 0x0298F = some (.updateDisplay 99 10) ∧ decodeTableWord 24 0x00000 = none := by decide
/-- Bytes that are no port word are rejected by name. -/
theorem test_decode_rejects : decodeBytes [] = .error .badLength ∧ decodeBytes [0x08] = .error .overlong ∧
    decodeBytes [0x01, 0x00, 0x04] = .error .overlong ∧ decodeBytes [0x01, 0x00] = .error .badLength :=
  ⟨rfl, rfl, rfl, rfl⟩
/-- W13, W14: the frames. -/
theorem test_frames : frameStandby build = [0x01, 0x80] ∧ frameWake build = [0x01, 0x00] ∧ frameSelTemp = [0x00] := by
  decide
/-- W10, W11, W12: response words. -/
theorem test_response_words : Rsp.word ⟨.ok, false, 0x19⟩ = 0x190 ∧ Rsp.word ⟨.ok, true, 0x00⟩ = 0x008 ∧
    Rsp.word ⟨.pollLimit, false, 0x00⟩ = 0x003 := by decide

/-! ### One step of each SEQ command, and of its answers -/

/-- S28, S29: RSP 0x004 at once. -/
theorem test_reserved000 : seqAfter (offering [0b000] base) =
    some (.idle, ⟨.illegalCmd, false, 0x00⟩, some (.rsp 0x004)) := by decide
theorem test_reserved111 : seqAfter (offering [0b111] base) =
    some (.idle, ⟨.illegalCmd, false, 0x00⟩, some (.rsp 0x004)) := by decide
/-- S1: the frame, then (settle delay over) RSP 0x000. -/
theorem test_standby_frame : seqAfter (offering [0b001] base) =
    some (.tx, ⟨.ok, false, 0x00⟩, some (.request (.busTx 0x48 (.bounded 10) [0x01, 0x80]))) := by decide
theorem test_standby_settled : seqAfter (delayOver (during .settle .standby 0)) =
    some (.idle, ⟨.ok, false, 0x00⟩, some (.rsp 0x000)) := by decide
/-- 40_sensor_sequencer.md rule R121: the settle delay follows the transmit. -/
theorem test_wakeup_frame : seqAfter (offering [0b010] base) =
    some (.tx, ⟨.ok, false, 0x00⟩, some (.request (.busTx 0x48 (.bounded 10) [0x01, 0x00]))) := by decide
theorem test_wakeup_delay : seqAfter (answered [.txOk] (during .tx .wakeup 0)) =
    some (.settle, ⟨.ok, false, 0x00⟩, some (.request (.delay 10))) := by decide
/-- Rule R122: 0x40 gives 1, 0xBF gives 0. -/
theorem test_isReady_yes : seqAfter (answered [.rxOk 0x40] (during .rxStatus .isReady 0)) =
    some (.idle, ⟨.ok, true, 0x00⟩, some (.rsp 0x008)) := by decide
theorem test_isReady_no : seqAfter (answered [.rxOk 0xBF] (during .rxStatus .isReady 0)) =
    some (.idle, ⟨.ok, false, 0x00⟩, some (.rsp 0x000)) := by decide
/-- P6: the third not-ready poll meets MAX_POLLS = some 3; the second does not. -/
theorem test_wakeupAndRead_limit : seqAfter (answered [.rxOk 0x00] (during .rxStatus .wakeupAndRead 2)) =
    some (.idle, ⟨.pollLimit, false, 0x00⟩, some (.rsp 0x003)) := by decide
theorem test_wakeupAndRead_poll : seqAfter (answered [.rxOk 0x00] (during .rxStatus .wakeupAndRead 1)) =
    some (.pollWait, ⟨.ok, false, 0x00⟩, some (.request (.delay 10))) := by decide
/-- S22, S21: the receive follows the select at once; a failed select is not followed by it. -/
theorem test_readAfterConfig_select : seqAfter (answered [.txOk] (during .tx .readAfterConfig 0)) =
    some (.rxData, ⟨.ok, false, 0x00⟩, some (.request (.busRx 0x48 (.bounded 10) 1))) := by decide
theorem test_readAfterConfig_failed : seqAfter (answered [.failed 0xAA true] (during .tx .readAfterConfig 0)) =
    some (.idle, ⟨.busError, false, 0x00⟩, some (.rsp 0x001)) := by decide
/-- S26. -/
theorem test_readAfterTemp_receive : seqAfter (offering [0b110] base) =
    some (.rxData, ⟨.ok, false, 0x00⟩, some (.request (.busRx 0x48 (.bounded 10) 1))) := by decide
theorem test_readAfterTemp_data : seqAfter (answered [.rxOk 0x1A] (during .rxData .readAfterTemp 0)) =
    some (.idle, ⟨.ok, false, 0x1A⟩, some (.rsp 0x1A0)) := by decide
/-- S30: a busy SEQ holds the offer. -/
theorem test_busy_offer_held : (after (step (offering [0b011] (during .settle .standby 0)))).map
    (fun t => (t.cmdPort, t.seq.op, t.seq.phase)) = some ([0b011], .standby, .settle) := by decide
/-- S34: a bus answer in SETTLE is not consumed. -/
theorem test_unlisted_answer_kept : (after (step (answered [.txOk] (during .settle .standby 0)))).map
    (fun t => (t.busPort, t.seq.phase)) = some ([.txOk], .settle) := by decide
/-- S33. -/
theorem test_phase_fault : step (answered [.txOk] (during .code6 .standby 0)) = .fault (.phaseFault 6) := rfl
/-- P3: the byte at CFG_REG of a sensor in standby that is not ready is 0x80. -/
theorem test_control_byte : Sensor.read build 0xFF { ptr := 0x01, standby := true, temp := 0x19, rdy := false } = 0x80 := by
  decide
/-- 20_memory.md rule R64: the value byte's bit 7 sets the mode. -/
theorem test_standby_frame_in_sensor : base.sensor.transmitted build [0x01, 0x80] =
    { ptr := 0x01, standby := true, temp := 0x19, rdy := true } := by decide

/-! ### One step of each DMUX event -/

/-- M2, M5. -/
theorem test_tickA : dmuxAfter (presented 0x00001 false (showing 0x4C true true false 0x39)) =
    some ({ counter := 0x4D, flag := true, en0 := true, en1 := false, seg := 0x39 }, [.diag 0x4D]) := by decide
theorem test_tickA_wraps : dmuxAfter (presented 0x00001 true (showing 0xFF true false true 0x71)) =
    some ({ counter := 0x00, flag := true, en0 := false, en1 := true, seg := 0x71 }, [.diag 0x00]) := by decide
/-- M16, M17. -/
theorem test_tickB_units : dmuxAfter (presented 0x00002 false (showing 0xA7 false false true 0x00)) =
    some ({ counter := 0xA7, flag := true, en0 := true, en1 := false, seg := 0x07 }, []) := by decide
theorem test_tickB_tens : dmuxAfter (presented 0x00002 false (showing 0xA7 true true false 0x07)) =
    some ({ counter := 0xA7, flag := false, en0 := false, en1 := true, seg := 0x77 }, []) := by decide
/-- M35, M36. -/
theorem test_updateDisplay_tens : dmuxAfter (presented 0x04723 false (showing 0x4D true true false 0x00)) =
    some ({ counter := 0x4D, flag := false, en0 := false, en1 := true, seg := 0x7C }, [.dmuxRsp 0b000]) := by decide
theorem test_updateDisplay_range : dmuxAfter (presented 0x04487 false (showing 0x4D true true false 0x00)) =
    some ({ counter := 0x4D, flag := true, en0 := true, en1 := false, seg := 0x00 }, [.dmuxRsp 0b101]) := by decide
/-- M42. -/
theorem test_tickB_fails : dmuxAfter (presented 0x00002 true (showing 0x4D false true false 0x00)) =
    some ({ counter := 0x4D, flag := false, en0 := true, en1 := false, seg := 0x00 }, [.ioErr]) := by decide
/-- M44: base 0 draws no io_fail. -/
theorem test_updateDisplay_base_zero : dmuxAfter (presented 0x00003 true (showing 0x4D false true false 0x00)) =
    some ({ counter := 0x4D, flag := false, en0 := true, en1 := false, seg := 0x00 }, [.dmuxRsp 0b110]) := by decide
/-- W4: a word of kind 00 passes and emits nothing. -/
theorem test_no_event : dmuxAfter (presented 0x3FFFC false base) = some (.reset, []) := by decide

/-! ### Witnesses: words, reset, the step -/

theorem witness_DecodedWordIsEncodedBack :
    decodeEvt 0x0298F = .ok (.updateDisplay 99 10) ∧ Instr.updateDisplay 99 10 ≠ .tickA ∧
      Instr.updateDisplay 99 10 ≠ .tickB ∧ decodeEvt 0x3FFFD = .ok .tickA := ⟨rfl, by decide, by decide, rfl⟩

/-- A WAKEUP_AND_READ after one not-ready poll, with another not-ready byte at hand. -/
def polling : State := answered [.rxOk 0xBF] (during .rxStatus .wakeupAndRead 1)

theorem polling_inv : Inv polling :=
  ⟨by decide, ⟨by decide, by decide⟩, fun m h => by cases h; decide, by decide, rfl, ⟨.inl rfl, .inl rfl⟩⟩

/-- The invariant holds in IDLE and at the last poll before the limit, and the step from there answers a next state. -/
theorem witness_StepKeepsInvariant : Inv polling ∧ ∃ t, step polling = .next t := ⟨polling_inv, _, rfl⟩
theorem witness_NoStopUnderInvariant : Inv polling := polling_inv

theorem witness_StepRunsDecodedInstruction :
    ((offering [0b001] base).turns = .offer :: [] ∧ (offering [0b001] base).cmdPort = 0b001 :: [] ∧
      decode (.cmd 0b001) = .ok .standby) ∧
    ((presented 0x00002 true base).turns = .event true :: [] ∧ (presented 0x00002 true base).evtPort = 0x00002 :: [] ∧
      decode (.evt 0x00002) = .ok .tickB) ∧
    decodeTableWord 24 0x0298F = some (.updateDisplay 99 10) := ⟨⟨rfl, rfl, rfl⟩, ⟨rfl, rfl, rfl⟩, by decide⟩

theorem witness_NothingScheduledWaits :
    (during .tx .standby 0).turns = [] ∧ (during .tx .standby 0).supply = .ended := ⟨rfl, rfl⟩

/-- A round of a TICK_A and a TICK_B, each with its turn. -/
def tickRound : Arrival where
  cmds := []
  evts := [0x00001, 0x00002]
  outcomes := []
  delays := 0
  turns := [.event false, .event true]

/-- TIMER ticks for ever. -/
def ticking : State := { base with supply := .repeating tickRound }

/-- A round that repeats, and a stream of which 3 arrivals have come. -/
theorem witness_SupplyOnlyPresents : ticking.turns = [] ∧ ticking.supply = .repeating tickRound ∧
    ({ base with supply := .free 3 } : State).turns = [] ∧ ({ base with supply := .free 3 } : State).supply = .free 3 :=
  ⟨rfl, rfl, rfl, rfl⟩

/-- 60_exceptions.md rule R190: the ticks of a round are presented behind an UPDATE_DISPLAY that stands in the port. -/
theorem test_supply_joins_behind : (after (step { ticking with evtPort := [0x0298F] })).map
    (fun t => (t.evtPort, t.turns, t.supply)) =
    some ([0x0298F, 0x00001, 0x00002], [.event false, .event true], .repeating tickRound) := by decide

theorem witness_KindZeroIsNoEvent : (presented 0x3FFFC true base).turns = .event true :: [] ∧
    (presented 0x3FFFC true base).evtPort = 0x3FFFC :: [] ∧ (0x3FFFC : EvtWord).extractLsb' 0 2 = 0 := by decide

/-- The three kinds of pending request at a reset, and both draws. -/
theorem witness_ResetTurnResetsBothUnits :
    ({ base with turns := [.reset 0xAA true false] } : State).turns = .reset 0xAA true false :: [] ∧
    ({ base with turns := [.reset 0xAA true true] } : State).turns = .reset 0xAA true true :: [] ∧ base.seq.pending = none ∧
    (during .settle .wakeup 0).seq.pending = some (.delay 10) ∧
    (during .rxData .readAfterTemp 0).seq.pending = some (.busRx 0x48 (.bounded 10) 1) ∧
    (∀ n, Request.busRx 0x48 (.bounded 10) 1 ≠ .delay n) :=
  ⟨rfl, rfl, rfl, rfl, rfl, fun _ h => by cases h⟩

/-- Two answers of BUS and two of TIMER, that come later. -/
def lateAnswers : Arrival where
  cmds := []
  evts := []
  outcomes := [.rxOk 0xAA, .rxOk 0x19]
  delays := 2
  turns := [.bus]

/-- A reset in the middle of a command, with the next command on offer and the answers still to come. -/
def interrupted (answered : Bool) (s : State) : State :=
  { s with cmdPort := [0b110], turns := [.reset 0xAA true answered, .offer], supply := .repeating lateAnswers }

theorem interrupted_inv (answered : Bool) (phase : Phase) (op : Op) (h : legalPair phase op = true) :
    Inv (interrupted answered (during phase op 0)) :=
  ⟨rfl, ⟨h, rfl⟩, fun m hm => by cases hm; exact ⟨Nat.zero_le _, fun _ => Nat.zero_lt_succ _⟩, rfl, rfl,
    .inl rfl, .inl rfl⟩

/-- A receive and a delay in flight, each with both draws. -/
theorem witness_ForgottenAnswersAreDropped (answered : Bool) :
    (Inv (interrupted answered (during .rxData .readAfterTemp 0)) ∧
      (during .rxData .readAfterTemp 0).seq.pending = some (.busRx 0x48 (.bounded 10) 1) ∧
      (∀ n, Request.busRx 0x48 (.bounded 10) 1 ≠ .delay n) ∧ (during .rxData .readAfterTemp 0).busPort = [] ∧
      (during .rxData .readAfterTemp 0).busOwed = 0) ∧
    (Inv (interrupted answered (during .settle .wakeup 0)) ∧
      (during .settle .wakeup 0).seq.pending = some (.delay 10) ∧ (during .settle .wakeup 0).timerPort = 0 ∧
      (during .settle .wakeup 0).timerOwed = 0) ∧
    ∀ s, (interrupted answered s).supply = .repeating lateAnswers ∧ (interrupted answered s).cmdPort = 0b110 :: [] ∧
      (interrupted answered s).turns = [.reset 0xAA true answered, .offer] :=
  ⟨⟨interrupted_inv answered _ _ rfl, rfl, by simp, rfl, rfl⟩,
    ⟨interrupted_inv answered _ _ rfl, rfl, rfl, rfl⟩, fun _ => ⟨rfl, rfl, rfl⟩⟩

/-- What SEQ makes of the answers that come after the reset, on the fourth step. -/
def lateRead (answered : Bool) : Option (Rsp × List BusOutcome) :=
  match Host.Core.run Sys2Proof.core 4 (interrupted answered (during .rxData .readAfterTemp 0)) with
  | .next t => some (t.seq.rsp, t.busPort)
  | .fault _ | .refused _ => none

/-- 70_reset_and_hazards.md rule R210: the first late answer is the forgotten request's, and is dropped; it is the next
command's where the forgotten request is never answered. -/
theorem test_late_answer_dropped : lateRead true = some (⟨.ok, false, 0x19⟩, []) := by decide
theorem test_unanswered_request_owes_nothing : lateRead false = some (⟨.ok, false, 0xAA⟩, [.rxOk 0x19]) := by decide

theorem witness_ParametersNeverChange : ∃ t, Runs 1 polling t := ⟨_, rfl⟩

/-! ### Witnesses: SEQ -/

theorem witness_TransmittingCommandsAccepted : base.seq.phase = .idle := rfl
theorem witness_ReceivingCommandsAccepted : base.seq.phase = .idle := rfl
theorem witness_ReservedCodesCompleteIllegal : base.seq.phase = .idle := rfl

theorem witness_OfferIsTakenOrHeld :
    ((offering [0b110, 0b001] base).turns = .offer :: [] ∧ (offering [0b110, 0b001] base).cmdPort = 0b110 :: [0b001] ∧
      (offering [0b110, 0b001] base).seq.phase = .idle) ∧
    ((offering [0b110] polling).turns = .offer :: [.bus] ∧ (offering [0b110] polling).cmdPort = 0b110 :: [] ∧
      (offering [0b110] polling).seq.phase ≠ .idle ∧ (offering [0b110] polling).seq.phase ≠ .code6 ∧
      (offering [0b110] polling).seq.phase ≠ .code7) := by decide

theorem witness_IllegalPhaseFaults :
    (during .code6 .standby 0).seq.phase = .code6 ∧ (during .code7 .standby 0).seq.phase = .code7 ∧
    Instr.wakeup.isCommand = true ∧ (offering [] (during .code6 .standby 0)).turns = .offer :: [] ∧
    (answered [] (during .code7 .standby 0)).turns = .bus :: [] ∧
    (delayOver (during .code6 .standby 0)).turns = .timer :: [] := by decide

/-- One state for each clause. -/
theorem witness_UnlistedAnswersWait :
    ((answered [.txOk] (during .settle .standby 0)).turns = .bus :: [] ∧
      (answered [.txOk] (during .settle .standby 0)).seq.phase = .settle) ∧
    ((answered [.rxOk 0] (during .tx .standby 0)).turns = .bus :: [] ∧
      (answered [.rxOk 0] (during .tx .standby 0)).busPort = .rxOk 0 :: [] ∧
      (answered [.rxSensor 0] (during .tx .standby 0)).busPort = .rxSensor 0 :: []) ∧
    ((answered [.txOk] (during .rxData .readAfterTemp 0)).turns = .bus :: [] ∧
      (answered [.txOk] (during .rxData .readAfterTemp 0)).busPort = .txOk :: []) ∧
    ((delayOver (during .rxStatus .isReady 0)).turns = .timer :: [] ∧
      (delayOver (during .rxStatus .isReady 0)).seq.phase = .rxStatus) ∧
    ((answered [] (during .tx .standby 0)).turns = .bus :: [] ∧ (answered [] (during .tx .standby 0)).busPort = [] ∧
      (answered [] (during .tx .standby 0)).seq.phase ≠ .code6 ∧ (answered [] (during .tx .standby 0)).seq.phase ≠ .code7) ∧
    (({ during .settle .standby 0 with turns := [.timer] } : State).turns = .timer :: [] ∧
      (during .settle .standby 0).timerPort = 0 ∧ (during .settle .standby 0).seq.phase ≠ .code6 ∧
      (during .settle .standby 0).seq.phase ≠ .code7) := by decide

/-- A failure, and a timeout that is not told apart, in the three phases that wait for BUS. -/
theorem witness_BusFailureEndsCommand :
    (during .tx .wakeup 0).seq.phase = .tx ∧ (during .rxStatus .isReady 0).seq.phase = .rxStatus ∧
    (answered [.failed 0xAA true] (during .rxData .readAfterTemp 0)).seq.phase = .rxData ∧
    (answered [.failed 0xAA true] (during .rxData .readAfterTemp 0)).turns = .bus :: [] ∧
    (answered [.failed 0xAA true] (during .rxData .readAfterTemp 0)).busPort = .failed 0xAA true :: [] ∧
    busAnswer build base.sensor (.failed 0xAA true) = some .busFail ∧
    busAnswer { build with timeoutDistinct := false } base.sensor (.expired 0xAA true) = some .busFail := by decide

theorem witness_ExpiredTransactionAnswer :
    (answered [.expired 0xAA true] (during .tx .standby 0)).seq.phase = .tx ∧
    (answered [.expired 0xAA true] (during .tx .standby 0)).turns = .bus :: [] ∧
    (answered [.expired 0xAA true] (during .tx .standby 0)).busPort = .expired 0xAA true :: [] ∧
    (unbounded (during .tx .standby 0)).params.busTimeout = .infinite ∧
    (during .tx .standby 0).params.busTimeout ≠ .infinite := by decide

/-- S4 and S19: steps after which SEQ holds TIMEOUT and POLL_LIMIT. -/
theorem witness_OptionalErrorsNeedTheirParameter :
    (after (step (answered [.expired 0 false] (during .tx .standby 0)))).map (·.seq.rsp.status) = some .timeout ∧
    (after (step (answered [.rxOk 0] (during .rxStatus .wakeupAndRead 2)))).map (·.seq.rsp.status) = some .pollLimit := by
  decide

theorem witness_ResponsesComeFromCompletion :
    (∃ t, step (answered [.rxOk 0x19] (during .rxData .readAfterTemp 0)) = .next t ∧
      t.out = .rsp 0x190 :: (during .rxData .readAfterTemp 0).out ∧
      t.seq.rsp ≠ (during .rxData .readAfterTemp 0).seq.rsp) := ⟨_, rfl, rfl, by decide⟩

/-- A completion with an error, and a DMUX event that failed. -/
theorem witness_NoErrorIsFatal :
    (∃ t, step (answered [.failed 0 false] (during .tx .standby 0)) = .next t ∧
      t.out = .rsp 0x001 :: (answered [.failed 0 false] (during .tx .standby 0)).out) ∧
    ∃ t, step (presented 0x00002 true base) = .next t ∧ t.out = [.ioErr] := ⟨⟨_, rfl, rfl⟩, ⟨_, rfl, rfl⟩⟩

theorem witness_DataByteIsNotChecked :
    (answered [.rxOk 0xFF] (during .rxData .readAfterTemp 0)).seq.phase = .rxData ∧
    (answered [.rxOk 0xFF] (during .rxData .readAfterTemp 0)).turns = .bus :: [] ∧
    (answered [.rxOk 0xFF] (during .rxData .readAfterTemp 0)).busPort = .rxOk 0xFF :: [] := ⟨rfl, rfl, rfl⟩

theorem witness_OnlyTheThreeFramesAreSent :
    (∃ t, step (offering [0b001] base) = .next t ∧ t.out = [.request (.busTx 0x48 (.bounded 10) [0x01, 0x80])] ++ []) ∧
    base.seq.phase = .idle := ⟨⟨_, rfl, rfl⟩, rfl⟩

/-- A request on an offer, on an answer of BUS and on an answer of TIMER. -/
theorem witness_OneRequestAtATime :
    (Inv (offering [0b011] base) ∧ ∃ t, step (offering [0b011] base) = .next t ∧
      t.out = .request (.busRx 0x48 (.bounded 10) 1) :: (offering [0b011] base).out) ∧
    (Inv polling ∧ ∃ t, step polling = .next t ∧ t.out = .request (.delay 10) :: polling.out) ∧
    (Inv (delayOver (during .pollWait .wakeupAndRead 1)) ∧
      ∃ t, step (delayOver (during .pollWait .wakeupAndRead 1)) = .next t ∧
        t.out = .request (.busRx 0x48 (.bounded 10) 1) :: (delayOver (during .pollWait .wakeupAndRead 1)).out) :=
  ⟨⟨⟨by decide, ⟨by decide, by decide⟩, fun m h => by cases h; decide, by decide, rfl, ⟨.inl rfl, .inl rfl⟩⟩, _, rfl, rfl⟩,
    ⟨polling_inv, _, rfl, rfl⟩,
    ⟨⟨by decide, ⟨by decide, by decide⟩, fun m h => by cases h; decide, by decide, rfl, ⟨.inl rfl, .inl rfl⟩⟩, _, rfl, rfl⟩⟩

theorem witness_ReadyIsBitSix : (0xFF : Byte).getLsbD 6 = (0x40 : Byte).getLsbD 6 ∧
    (0xBF : Byte).getLsbD 6 = (0x00 : Byte).getLsbD 6 := by decide

/-- A whole command: its words on offer, its turns, BUS's outcomes and TIMER's answers. -/
def whole (words : List CmdWord) (turns : List Turn) (outcomes : List BusOutcome) (delays : Nat) : State :=
  { base with cmdPort := words, turns := turns, busPort := outcomes, timerPort := delays }

/-- Every hypothesis of a whole command from IDLE, at once. -/
def Whole (s : State) (words : List CmdWord) (turns : List Turn) (outcomes : List BusOutcome) (delays : Nat) : Prop :=
  s.seq.phase = .idle ∧ s.cmdPort = words ∧ s.turns = turns ∧ s.busPort = outcomes ∧ s.timerPort = delays

theorem whole_spec (words : List CmdWord) (turns : List Turn) (outcomes : List BusOutcome) (delays : Nat) :
    Whole (whole words turns outcomes delays) words turns outcomes delays := ⟨rfl, rfl, rfl, rfl, rfl⟩

theorem witness_ModeCommandsRun :
    Whole (whole [0b001] [.offer, .bus, .timer] [.txOk] 1) (0b001 :: []) (.offer :: .bus :: .timer :: []) (.txOk :: [])
      (0 + 1) ∧
    Whole (whole [0b010] [.offer, .bus, .timer] [.txOk] 1) (0b010 :: []) (.offer :: .bus :: .timer :: []) (.txOk :: [])
      (0 + 1) := ⟨whole_spec .., whole_spec ..⟩

/-- Each answer of BUS that the clauses name. -/
theorem witness_IsReadyRun :
    (Whole (whole [0b011] [.offer, .bus] [.rxOk 0xFF] 0) (0b011 :: []) (.offer :: .bus :: []) (.rxOk 0xFF :: []) 0 ∧
      busAnswer build base.sensor (.rxOk 0xFF) = some (.rxOk 0xFF)) ∧
    (Whole (whole [0b011] [.offer, .bus] [.failed 0 false] 0) (0b011 :: []) (.offer :: .bus :: [])
        (.failed 0 false :: []) 0 ∧
      busAnswer build base.sensor (.failed 0 false) = some .busFail) ∧
    (Whole (whole [0b011] [.offer, .bus] [.expired 0 false] 0) (0b011 :: []) (.offer :: .bus :: [])
        (.expired 0 false :: []) 0 ∧
      busAnswer build base.sensor (.expired 0 false) = some .busTimeout) :=
  ⟨⟨whole_spec .., by decide⟩, ⟨whole_spec .., by decide⟩, ⟨whole_spec .., by decide⟩⟩

theorem witness_ReadAfterTempRun :
    (Whole (whole [0b110] [.offer, .bus] [.rxSensor 0] 0) (0b110 :: []) (.offer :: .bus :: []) (.rxSensor 0 :: []) 0 ∧
      busAnswer build base.sensor (.rxSensor 0) = some (.rxOk 0x19)) ∧
    (Whole (whole [0b110] [.offer, .bus] [.failed 0 false] 0) (0b110 :: []) (.offer :: .bus :: [])
        (.failed 0 false :: []) 0 ∧
      busAnswer build base.sensor (.failed 0 false) = some .busFail) ∧
    (Whole (whole [0b110] [.offer, .bus] [.expired 0 false] 0) (0b110 :: []) (.offer :: .bus :: [])
        (.expired 0 false :: []) 0 ∧
      busAnswer build base.sensor (.expired 0 false) = some .busTimeout) :=
  ⟨⟨whole_spec .., by decide⟩, ⟨whole_spec .., by decide⟩, ⟨whole_spec .., by decide⟩⟩

/-- A failed and an expired select; a byte, a failed and an expired receive. -/
theorem witness_ReadAfterConfigRun :
    (Whole (whole [0b101] [.offer, .bus] [.failed 0 false] 0) (0b101 :: []) (.offer :: .bus :: [])
        (.failed 0 false :: []) 0 ∧
      busAnswer build base.sensor (.failed 0 false) = some .busFail) ∧
    (Whole (whole [0b101] [.offer, .bus] [.expired 0 false] 0) (0b101 :: []) (.offer :: .bus :: [])
        (.expired 0 false :: []) 0 ∧
      busAnswer build base.sensor (.expired 0 false) = some .busTimeout) ∧
    (Whole (whole [0b101] [.offer, .bus, .bus] [.txOk, .rxOk 0x19] 0) (0b101 :: []) (.offer :: .bus :: .bus :: [])
        (.txOk :: .rxOk 0x19 :: []) 0 ∧
      busAnswer build { base.sensor with ptr := 0x00 } (.rxOk 0x19) = some (.rxOk 0x19)) ∧
    (Whole (whole [0b101] [.offer, .bus, .bus] [.txOk, .failed 0 false] 0) (0b101 :: []) (.offer :: .bus :: .bus :: [])
        (.txOk :: .failed 0 false :: []) 0 ∧
      busAnswer build { base.sensor with ptr := 0x00 } (.failed 0 false) = some .busFail) ∧
    (Whole (whole [0b101] [.offer, .bus, .bus] [.txOk, .expired 0 false] 0) (0b101 :: []) (.offer :: .bus :: .bus :: [])
        (.txOk :: .expired 0 false :: []) 0 ∧
      busAnswer build { base.sensor with ptr := 0x00 } (.expired 0 false) = some .busTimeout) :=
  ⟨⟨whole_spec .., by decide⟩, ⟨whole_spec .., by decide⟩, ⟨whole_spec .., by decide⟩, ⟨whole_spec .., by decide⟩,
    ⟨whole_spec .., by decide⟩⟩

/-- P2: two not-ready polls below MAX_POLLS = some 3; and no not-ready poll. -/
theorem witness_WakeupAndReadRun :
    (Whole (whole [0b100] [.offer, .bus, .timer, .bus, .timer, .bus, .timer, .bus, .bus]
        [.txOk, .rxOk 0x00, .rxOk 0xBF, .rxOk 0x40, .rxOk 0x40] 3)
        (0b100 :: []) (.offer :: .bus :: .timer :: (pollTurns 2 ++ .bus :: .bus :: []))
        (.txOk :: (([0x00, 0xBF] : List Byte).map .rxOk ++ .rxOk 0x40 :: .rxOk 0x40 :: [])) (2 + 1 + 0) ∧
      (∀ b ∈ ([0x00, 0xBF] : List Byte), (b &&& 0x40) = 0) ∧ ((0x40 : Byte) &&& 0x40) ≠ 0 ∧
      (∀ m, build.maxPolls = some m → ([0x00, 0xBF] : List Byte).length < m)) ∧
    Whole (whole [0b100] [.offer, .bus, .timer, .bus, .bus] [.txOk, .rxOk 0x40, .rxOk 0x40] 1)
      (0b100 :: []) (.offer :: .bus :: .timer :: (pollTurns 0 ++ .bus :: .bus :: []))
      (.txOk :: (([] : List Byte).map .rxOk ++ .rxOk 0x40 :: .rxOk 0x40 :: [])) (0 + 1 + 0) :=
  ⟨⟨whole_spec .., by decide, by decide, fun m h => by cases h; decide⟩, whole_spec ..⟩

/-- P6: MAX_POLLS = some 3. -/
theorem witness_PollLimitEndsWakeupAndRead :
    Whole (whole [0b100] [.offer, .bus, .timer, .bus, .timer, .bus, .timer, .bus]
        [.txOk, .rxOk 0x00, .rxOk 0x3F, .rxOk 0x80] 3)
        (0b100 :: []) (.offer :: .bus :: .timer :: (pollTurns 2 ++ .bus :: []))
        (.txOk :: (([0x00, 0x3F, 0x80] : List Byte).map .rxOk ++ [])) (2 + 1 + 0) ∧
      build.maxPolls = some (2 + 1) ∧ ([0x00, 0x3F, 0x80] : List Byte).length = 2 + 1 ∧
      (∀ b ∈ ([0x00, 0x3F, 0x80] : List Byte), (b &&& 0x40) = 0) := ⟨whole_spec .., rfl, rfl, by decide⟩

/-- S31: the loop, under MAX_POLLS = none. -/
theorem witness_NeverReadyNeverCompletes :
    (unbounded polling).params.maxPolls = none ∧ (unbounded polling).seq.op = .wakeupAndRead ∧
    (unbounded polling).seq.phase = .rxStatus ∧
    (∀ o ∈ (unbounded polling).busPort, ∃ b, o = .rxOk b ∧ (b &&& 0x40) = 0) ∧
    (∀ tn ∈ (unbounded polling).turns, tn.isReset = false) ∧
    (unbounded polling).supply.All
      (fun a => (∀ o ∈ a.outcomes, ∃ b, o = .rxOk b ∧ (b &&& 0x40) = 0) ∧ ∀ tn ∈ a.turns, tn.isReset = false) ∧
    (Supply.repeating { cmds := [], evts := [], outcomes := [.rxOk 0x00], delays := 1, turns := [.timer, .bus] }).All
      (fun a => (∀ o ∈ a.outcomes, ∃ b, o = .rxOk b ∧ (b &&& 0x40) = 0) ∧ ∀ tn ∈ a.turns, tn.isReset = false) :=
  ⟨rfl, rfl, rfl, fun o h => ⟨0xBF, List.mem_singleton.1 h, by decide⟩, by decide, trivial,
    fun o h => ⟨0x00, List.mem_singleton.1 h, by decide⟩, by decide⟩

theorem witness_FramesSetThePointer :
    (Inv (answered [.txOk] (during .tx .standby 0)) ∧ (answered [.txOk] (during .tx .standby 0)).turns = .bus :: [] ∧
      (∃ t, step (answered [.txOk] (during .tx .standby 0)) = .next t) ∧
      (during .tx .standby 0).seq.pending = some (.busTx 0x48 (.bounded 10) (0x01 :: [0x80]))) ∧
    (Inv polling ∧ polling.turns = .bus :: [] ∧ (∃ t, step polling = .next t) ∧
      polling.seq.pending = some (.busRx 0x48 (.bounded 10) 1)) :=
  ⟨⟨⟨by decide, ⟨by decide, by decide⟩, fun m h => by cases h; decide, by decide, rfl, ⟨.inl rfl, .inl rfl⟩⟩, rfl, ⟨_, rfl⟩, rfl⟩,
    ⟨polling_inv, rfl, ⟨_, rfl⟩, rfl⟩⟩

theorem witness_BareReadAfterStandbyReadsControl :
    Whole (whole [0b001, 0b110] [.offer, .bus, .timer, .offer, .bus] [.txOk, .rxSensor 0] 1) (0b001 :: 0b110 :: [])
      (.offer :: .bus :: .timer :: .offer :: .bus :: []) (.txOk :: .rxSensor 0 :: []) (0 + 1) ∧
    build.cfgReg ≠ 0x00 := ⟨whole_spec .., by decide⟩

theorem witness_WhichRegisterAReadReturns :
    Whole (whole [0b101] [.offer, .bus, .bus] [.txOk, .rxSensor 0] 0) (0b101 :: []) (.offer :: .bus :: .bus :: [])
      (.txOk :: .rxSensor 0 :: []) 0 ∧
    (Whole (whole [0b100] [.offer, .bus, .timer, .bus, .bus] [.txOk, .rxOk 0xC0, .rxSensor 0] 1) (0b100 :: [])
        (.offer :: .bus :: .timer :: .bus :: .bus :: []) (.txOk :: .rxOk 0xC0 :: .rxSensor 0 :: []) (0 + 1) ∧
      build.cfgReg ≠ 0x00 ∧ ((0xC0 : Byte) &&& 0x40) ≠ 0) := ⟨whole_spec .., whole_spec .., by decide, by decide⟩

/-! ### Witnesses: DMUX and the two units -/

/-- Outputs that can fail and do not, with either flag. -/
theorem witness_TickBEffect : (base.params.ioFailPossible && base.ioFail) = false ∧ base.dmux.flag = false ∧
    (showing 0xFF true false true 0).dmux.flag = true := by decide

/-- The largest digits: 255 in radix 16, and 159 in radix 10. -/
theorem witness_UpdateDisplayEffect :
    (255 : Byte).toNat / (16 : Byte).toNat < 16 ∧ (255 : Byte).toNat % (16 : Byte).toNat < 16 ∧
    (159 : Byte).toNat / (10 : Byte).toNat < 16 ∧ (159 : Byte).toNat % (10 : Byte).toNat < 16 ∧ (16 : Byte) ≠ 0 ∧
    (base.params.ioFailPossible && base.ioFail) = false ∧ base.dmux.flag = false ∧
    (showing 0 true false true 0).dmux.flag = true := by decide

/-- The smallest refused tens (160 in radix 10) and units (33 in radix 17). -/
theorem witness_UpdateDisplayRefusesOperands :
    15 < (160 : Byte).toNat / (10 : Byte).toNat ∧ 15 < (33 : Byte).toNat % (17 : Byte).toNat ∧ (10 : Byte) ≠ 0 ∧
    (17 : Byte) ≠ 0 := by decide

theorem witness_FailedRefreshChangesNothing :
    ({ base with ioFail := true } : State).params.ioFailPossible = true ∧ ({ base with ioFail := true } : State).ioFail = true ∧
    (10 : Byte) ≠ 0 ∧ (99 : Byte).toNat / (10 : Byte).toNat < 16 ∧ (99 : Byte).toNat % (10 : Byte).toNat < 16 := by decide

theorem witness_HexDigitsAndNoRomFault : (Instr.updateDisplay 255 1).isCommand = false ∧ Instr.tickB.isCommand = false := by
  decide

theorem witness_OnlyTickAWritesCounter : ∃ t, step (presented 0x00001 false base) = .next t ∧
    t.dmux.counter ≠ base.dmux.counter := ⟨_, rfl, by decide⟩

theorem witness_OnlyRefreshWritesOutputs : ∃ t, step (presented 0x00002 false base) = .next t ∧
    t.dmux.flag ≠ base.dmux.flag := ⟨_, rfl, by decide⟩

theorem witness_PinLevels : OneEnabled base := rfl

theorem tickACount_replicate (n : Nat) : tickACount n (List.replicate n 0x00001) = n := by
  rw [tickACount, List.take_of_length_le (List.length_replicate ..).le, List.countP_replicate, if_pos (by decide)]

/-- Events in a row with 1 TICK_A, and with 256 of them. -/
theorem witness_CounterCountsTicks :
    (2 ≤ ({ base with turns := [.event false, .event true], evtPort := [0x00001, 0x00002] } : State).turns.length ∧
      (∀ tn ∈ [Turn.event false, .event true].take 2, tn.isEvent = true) ∧
      0 < tickACount 2 [0x00001, 0x00002] ∧ tickACount 2 [0x00001, 0x00002] < 256) ∧
    (256 ≤ (List.replicate 256 (Turn.event false)).length ∧
      (∀ tn ∈ (List.replicate 256 (Turn.event false)).take 256, tn.isEvent = true) ∧
      tickACount 256 (List.replicate 256 0x00001) = 256) :=
  ⟨by decide, (List.length_replicate ..).ge, fun tn h => by rw [List.eq_of_mem_replicate (List.mem_of_mem_take h)]; rfl,
    tickACount_replicate 256⟩

/-- One TICK_A a round, and a round of a kind-00 word beside a TICK_A. -/
theorem witness_EndlessTicksAreTaken :
    (ticking.turns = [] ∧ ticking.evtPort = [] ∧ ticking.supply = .repeating tickRound ∧
      (∀ tn ∈ tickRound.turns, tn.isEvent = true) ∧ tickRound.turns.length = tickRound.evts.length ∧
      tickACount tickRound.evts.length tickRound.evts = 1) ∧
    tickACount 2 [0x3FFFC, 0x3FFFD] = 1 := by decide

/-- Two rounds of `tickRound`, from before the first of them arrives. -/
theorem witness_RefreshesAlternate : inputs 6 ticking =
      [.event (some 0x00001) false, .event (some 0x00002) true, .event (some 0x00001) false, .event (some 0x00002) true] ∧
    ∀ x ∈ inputs 6 ticking, x.isReset = false := by decide

/-- Runs of different lengths with the same events: one scheduled, one beside SEQ's turn; and one that the supply brings. -/
theorem witness_DmuxIndependentOfSeqAndTime :
    let s : State := { base with turns := [.event true], evtPort := [0x00002] }
    let s' : State := { during .settle .standby 0 with turns := [.timer, .event true], evtPort := [0x00002] }
    let r : Arrival := { cmds := [], evts := [0x00002], outcomes := [], delays := 0, turns := [.event true] }
    let s'' : State := { base with supply := .repeating r }
    (s.dmux = s'.dmux ∧ s.evtPort = s'.evtPort ∧ s.params.digitCode = s'.params.digitCode ∧
      s.params.ioFailPossible = s'.params.ioFailPossible ∧ 1 ≤ s.turns.length ∧ s'.supply = .ended ∧
      (∀ tn ∈ s.turns.take 1, tn.isReset = false) ∧ (∀ tn ∈ s'.turns.take 2, tn.isReset = false) ∧
      (s.turns.take 1).filter Turn.isEvent = (s'.turns.take 2).filter Turn.isEvent) ∧
    ((∀ x ∈ inputs 2 s', x.isReset = false) ∧ (∀ x ∈ inputs 2 s'', x.isReset = false) ∧
      (inputs 2 s').filter Input.isEvent = (inputs 2 s'').filter Input.isEvent ∧
      (inputs 2 s'').filter Input.isEvent = [.event (some 0x00002) true]) ∧
    (∃ t, Runs 1 s t) ∧ (∃ t, Runs 2 s' t) ∧ ∃ t, Runs 2 s'' t :=
  ⟨by decide, by decide, ⟨_, rfl⟩, ⟨_, rfl⟩, _, rfl⟩

theorem witness_SeqIndependentOfDmux :
    let s : State := { base with turns := [.event true, .offer], cmdPort := [0b001], evtPort := [0x00001] }
    let s' : State := { showing 0x4D true false true 0x66 with turns := [.offer], cmdPort := [0b001] }
    let r : Arrival := { cmds := [0b001], evts := [], outcomes := [], delays := 0, turns := [.offer] }
    let s'' : State := { base with supply := .repeating r }
    (s.seq = s'.seq ∧ s.sensor = s'.sensor ∧ s.params = s'.params ∧ s.cmdPort = s'.cmdPort ∧ s.busPort = s'.busPort ∧
      s.timerPort = s'.timerPort ∧ 2 ≤ s.turns.length ∧ s'.supply = .ended ∧
      (s.turns.take 2).filter (fun tn => !tn.isEvent) = (s'.turns.take 1).filter (fun tn => !tn.isEvent)) ∧
    (inputs 2 s).filter (fun x => !x.isEvent) = (inputs 2 s'').filter (fun x => !x.isEvent) ∧
    (∃ t, Runs 2 s t) ∧ (∃ t, Runs 1 s' t) ∧ ∃ t, Runs 2 s'' t :=
  ⟨by decide, by decide, ⟨_, rfl⟩, ⟨_, rfl⟩, _, rfl⟩

theorem witness_UnitsShareNothing :
    (polling.turns = .bus :: [] ∧ ∃ t, step polling = .next t) ∧
    ((presented 0x00002 false base).turns = .event false :: [] ∧ ∃ t, step (presented 0x00002 false base) = .next t) :=
  ⟨⟨rfl, _, rfl⟩, ⟨rfl, _, rfl⟩⟩

/-- A boot in the order of 70_reset_and_hazards.md rule R212. -/
def bootActs : List LifeAct := [.resetBlock, .construct true, .setOutputs, .createTimers]

/-- The commands open and the responses given after a step. -/
def commandsAfter (s : State) : Option (Nat × Nat) := (after (step s)).map fun t => (openCommands t, responses t)

/-- A step that takes a command, one that answers it, and an arrival of one. -/
theorem witness_CommandsAreAnsweredOnce :
    (commandsAfter (offering [0b110] base) = some (1, 0) ∧ (offering [0b110] base).turns = .offer :: [] ∧
      Turn.offer.isReset = false) ∧
    commandsAfter (answered [.rxOk 0] (during .rxData .readAfterTemp 0)) = some (0, 1) ∧
    (commandsAfter { base with supply := .repeating { lateAnswers with cmds := [0b001] } } = some (1, 0) ∧
      base.turns = []) ∧ lateAnswers.cmds = [] := by decide

theorem witness_CommandsAreAnsweredOnce_run : (∃ t, Runs 2 (whole [0b110] [.offer, .bus] [.rxOk 0] 0) t) ∧
    (whole [0b110] [.offer, .bus] [.rxOk 0] 0).supply.All (fun a => a.cmds = []) ∧
    ∀ x ∈ inputs 2 (whole [0b110] [.offer, .bus] [.rxOk 0] 0), x.isReset = false := ⟨⟨_, rfl⟩, trivial, by decide⟩

/-- A history with one act of it marked out, as `Obligations.DutifulHistories` takes it. -/
def dutiful (before : List LifeAct) (act : LifeAct) (rest : List LifeAct) : Bool :=
  lifeOk (before ++ act :: rest) .start

def outputsOnly : List LifeAct := [.resetBlock, .setOutputs]
def commandAnswered : List LifeAct := [.resetBlock, .construct true, .setOutputs, .createTimers, .offer, .response]
def timersOff : List LifeAct := [.resetBlock, .construct true, .setOutputs, .createTimers, .offer, .response, .stopTimers]

/-- A tick; an UPDATE_DISPLAY before there are timers; an offer; and each teardown, after the command was answered. -/
theorem witness_DutifulHistories :
    dutiful bootActs .tick [.stopTimers, .teardownBus] = true ∧
    dutiful outputsOnly .updateDisplay [.construct false, .createTimers] = true ∧
    dutiful bootActs .offer [.response, .teardownBus] = true ∧
    dutiful timersOff .teardownDmux [.teardownBus] = true ∧
    dutiful commandAnswered .teardownBus [.tick, .stopTimers, .teardownDmux] = true := by decide

/-- 70_reset_and_hazards.md rules R214, R216: no manual refresh on input pins, and no teardown under a command. -/
theorem test_duties_broken :
    dutiful [.resetBlock] .updateDisplay [] = false ∧ dutiful bootActs .offer [.teardownBus] = false ∧
    dutiful bootActs .offer [.stopTimers, .teardownDmux] = false := by decide

end Sys2Proof.Tests
end

section
/-! SUPPORT. The two units share nothing (00_scope.md rule R8). Putting other registers into the unit that does not step commutes
with everything the stepping unit does: SEQ's operations with `withDmux`, DMUX's with `withSeq`, and so a step on a turn of the
one or the other. -/

namespace Sys2Proof.Machine

/-- `s` with other DMUX registers. -/
def withDmux (d : Dmux) (s : State) : State := { s with dmux := d }

/-- `s` with other SEQ registers. -/
def withSeq (q : Seq) (s : State) : State := { s with seq := q }

/-- `f` applied to the next state, where there is one. -/
def mapNext (f : State → State) : Host.Outcome State Fault Refusal → Host.Outcome State Fault Refusal
  | .next s => .next (f s)
  | .fault r => .fault r
  | .refused r => .refused r

/-! ### SEQ does the same whatever DMUX holds -/

section Sequencer

variable (d : Dmux) (s : State)

@[simp] theorem withDmux_seq : (withDmux d s).seq = s.seq := rfl
@[simp] theorem withDmux_params : (withDmux d s).params = s.params := rfl
@[simp] theorem withDmux_sensor : (withDmux d s).sensor = s.sensor := rfl
@[simp] theorem withDmux_cmdPort : (withDmux d s).cmdPort = s.cmdPort := rfl
@[simp] theorem withDmux_busPort : (withDmux d s).busPort = s.busPort := rfl
@[simp] theorem withDmux_timerPort : (withDmux d s).timerPort = s.timerPort := rfl

/-- An offer commutes with `withDmux` when its first action does. There are two first actions because a command builds its frame
from the parameters of the state it is offered in. -/
theorem offered_withDmux (op : Op) {first first' : State → State}
    (hf : ∀ u, first' (withDmux d u) = withDmux d (first u)) :
    offered op first' (withDmux d s) = mapNext (withDmux d) (offered op first s) := by
  have haccept : first' (accept op (withDmux d s)) = withDmux d (first (accept op s)) := hf (accept op s)
  simp only [offered, withDmux_seq, haccept]
  cases s.seq.phase <;> rfl

theorem exec_command_withDmux {i : Instr} (hi : i.isCommand = true) :
    exec i (withDmux d s) = mapNext (withDmux d) (exec i s) := by
  cases i <;> simp only [Instr.isCommand, Bool.false_eq_true] at hi
  all_goals exact offered_withDmux d s _ fun _ => rfl

theorem seqTurn_withDmux (r : Host.Outcome State Fault Refusal) :
    seqTurn (withDmux d s) (mapNext (withDmux d) r) = mapNext (withDmux d) (seqTurn s r) := by
  simp only [seqTurn, withDmux_seq]
  cases s.seq.phase <;> rfl

theorem afterTx_withDmux : afterTx (withDmux d s) = (afterTx s).map (withDmux d) := by
  simp only [afterTx, withDmux_seq]
  cases s.seq.op <;> rfl

theorem afterSettle_withDmux : afterSettle (withDmux d s) = (afterSettle s).map (withDmux d) := by
  simp only [afterSettle, withDmux_seq]
  cases s.seq.op <;> rfl

theorem pollNotReady_withDmux : pollNotReady (withDmux d s) = withDmux d (pollNotReady s) := by
  unfold pollNotReady
  rw [apply_ite (withDmux d)]
  rfl

theorem afterStatus_withDmux (b : Byte) : afterStatus b (withDmux d s) = (afterStatus b s).map (withDmux d) := by
  simp only [afterStatus, withDmux_seq, pollNotReady_withDmux]
  cases s.seq.op with
  | wakeupAndRead => cases isReadyByte b <;> rfl
  | _ => rfl

theorem seqBusAnswer_withDmux (a : BusAnswer) :
    seqBusAnswer a (withDmux d s) = (seqBusAnswer a s).map (withDmux d) := by
  simp only [seqBusAnswer, withDmux_seq, afterTx_withDmux, afterStatus_withDmux]
  cases s.seq.phase <;> cases a <;> rfl

theorem seqDelayDone_withDmux : seqDelayDone (withDmux d s) = (seqDelayDone s).map (withDmux d) := by
  simp only [seqDelayDone, withDmux_seq, afterSettle_withDmux]
  cases s.seq.phase <;> rfl

theorem offerTurn_withDmux : offerTurn (withDmux d s) = mapNext (withDmux d) (offerTurn s) := by
  cases hp : s.cmdPort with
  | nil =>
    simp only [offerTurn, fetchCmd, withDmux_cmdPort, hp, List.head?_nil, Option.map_none]
    exact seqTurn_withDmux d s (.next s)
  | cons w ws =>
    rw [offerTurn_of hp, offerTurn_of (s := withDmux d s) hp]
    exact exec_command_withDmux d s (decodeCmd_isCommand w)

theorem busTurn_withDmux : busTurn (withDmux d s) = mapNext (withDmux d) (busTurn s) := by
  simp only [busTurn, ← seqTurn_withDmux, withDmux_busPort, withDmux_params, withDmux_sensor, withDmux_seq,
    seqBusAnswer_withDmux]
  congr 1
  cases s.busPort with
  | nil => rfl
  | cons o rest =>
    dsimp only
    cases busAnswer s.params s.sensor o with
    | none => rfl
    | some a =>
      dsimp only [Option.bind_some]
      cases seqBusAnswer a s <;> rfl

theorem timerTurn_withDmux : timerTurn (withDmux d s) = mapNext (withDmux d) (timerTurn s) := by
  simp only [timerTurn, ← seqTurn_withDmux, withDmux_timerPort, seqDelayDone_withDmux]
  congr 1
  cases s.timerPort with
  | zero => rfl
  | succ n => cases seqDelayDone s <;> rfl

/-- A step on a turn of SEQ does the same whatever DMUX holds. -/
theorem step_seqUnit_withDmux {tn : Turn} {ts : List Turn} (ht : s.turns = tn :: ts)
    (hs : tn = .offer ∨ tn = .bus ∨ tn = .timer) : step (withDmux d s) = mapNext (withDmux d) (step s) := by
  rw [step_of_turn ht, step_of_turn (s := withDmux d s) ht]
  rcases hs with rfl | rfl | rfl
  · exact offerTurn_withDmux d { s with turns := ts }
  · exact busTurn_withDmux d { s with turns := ts }
  · exact timerTurn_withDmux d { s with turns := ts }

end Sequencer

/-! ### DMUX does the same whatever SEQ holds -/

section Multiplexer

variable (q : Seq) (s : State)

@[simp] theorem withSeq_dmux : (withSeq q s).dmux = s.dmux := rfl
@[simp] theorem withSeq_params : (withSeq q s).params = s.params := rfl
@[simp] theorem withSeq_ioFail : (withSeq q s).ioFail = s.ioFail := rfl
@[simp] theorem withSeq_evtPort : (withSeq q s).evtPort = s.evtPort := rfl

theorem refresh_withSeq (v b : Nat) : refresh v b (withSeq q s) = (refresh v b s).map (Prod.map id (withSeq q)) := by
  cases hio : s.params.ioFailPossible && s.ioFail with
  | true =>
    simp only [refresh, withSeq_params, withSeq_ioFail, hio, ↓reduceIte]
    rfl
  | false =>
    simp only [refresh, withSeq_params, withSeq_ioFail, withSeq_dmux, hio, Bool.false_eq_true, ↓reduceIte]
    cases rom s.params (shownDigit s.dmux.flag (tens v b) (units v b)) <;> rfl

theorem execTickB_withSeq : execTickB (withSeq q s) = mapNext (withSeq q) (execTickB s) := by
  simp only [execTickB, withSeq_dmux, refresh_withSeq]
  cases refresh s.dmux.counter.toNat Config.digitRadix s <;> rfl

theorem execUpdateDisplay_withSeq (value base : Byte) :
    execUpdateDisplay value base (withSeq q s) = mapNext (withSeq q) (execUpdateDisplay value base s) := by
  unfold execUpdateDisplay
  rw [refresh_withSeq]
  split
  · rfl
  · split
    · rfl
    · cases refresh value.toNat base.toNat s <;> rfl

theorem exec_event_withSeq {i : Instr} (hi : i.isCommand = false) :
    exec i (withSeq q s) = mapNext (withSeq q) (exec i s) := by
  cases i <;> simp only [Instr.isCommand, Bool.true_eq_false] at hi
  case tickA => rfl
  case tickB => exact execTickB_withSeq q s
  case updateDisplay value base => exact execUpdateDisplay_withSeq q s value base

theorem eventTurn_withSeq : eventTurn (withSeq q s) = mapNext (withSeq q) (eventTurn s) := by
  cases hp : s.evtPort with
  | nil =>
    simp only [eventTurn, withSeq_evtPort, hp]
    rfl
  | cons w ws =>
    cases hd : decodeEvt w with
    | error r =>
      simp only [eventTurn, withSeq_evtPort, hp, hd]
      rfl
    | ok i =>
      rw [eventTurn_of hp hd, eventTurn_of (s := withSeq q s) hp hd]
      exact exec_event_withSeq q s (decodeEvt_isEvent hd)

/-- A step on an event does the same whatever SEQ holds. -/
theorem step_event_withSeq {io : Bool} {ts : List Turn} (ht : s.turns = .event io :: ts) :
    step (withSeq q s) = mapNext (withSeq q) (step s) := by
  rw [step_of_turn ht, step_of_turn (s := withSeq q s) ht]
  exact eventTurn_withSeq q { s with turns := ts, ioFail := io }

end Multiplexer

/-- Settles O54: the frames of a step on a turn of either unit, and the step's commuting with a change of the other unit's
registers. -/
theorem unitsShareNothing : Obligations.UnitsShareNothing := by
  refine ⟨fun s t ts d hturn h => ?_, fun s t ts io q ht h => ?_⟩
  · obtain ⟨tn, ht, hs⟩ : ∃ tn, s.turns = tn :: ts ∧ (tn = .offer ∨ tn = .bus ∨ tn = .timer) := by
      rcases hturn with ht | ht | ht <;> exact ⟨_, ht, by simp⟩
    obtain ⟨hdmux, -, hport, -⟩ := step_seqUnit_frame ht hs h
    exact ⟨hdmux, hport, (step_seqUnit_withDmux d s ht hs).trans (congrArg (mapNext (withDmux d)) h)⟩
  · obtain ⟨hseq, -, hsensor, hcmd, hbus, htimer, -⟩ := step_event_frame ht h
    exact ⟨hseq, hsensor, hcmd, hbus, htimer, (step_event_withSeq q s ht).trans (congrArg (mapNext (withSeq q)) h)⟩

end Sys2Proof.Machine
end

section
/-! SUPPORT. What SEQ may ask for and how it reads a status byte (30_encoding.md rules R95, R96). Each operation a meaning is built
from emits at most one request, and that request is an allowed one for the op SEQ holds; so each turn, and then each step, does. -/

namespace Sys2Proof.Machine

variable {s t : State}

/-! ### The ready bit -/

/-- READY_MASK picks out bit 6. -/
theorem and_readyMask (b : Byte) : b &&& Config.readyMask = if b.getLsbD 6 then Config.readyMask else 0 :=
  BitVec.and_twoPow b 6

theorem isReadyByte_eq_getLsbD (b : Byte) : isReadyByte b = b.getLsbD 6 := by
  rw [isReadyByte, and_readyMask]
  cases b.getLsbD 6 <;> rfl

theorem isReadyByte_iff (b : Byte) : isReadyByte b = true ↔ (b &&& 0x40) ≠ 0 := bne_iff_ne

/-- Settles O29: the mask 0x40 is bit 6 alone, so the ready test reads that bit and no other. -/
theorem readyIsBitSix : Obligations.ReadyIsBitSix := by
  refine ⟨fun b => ⟨isReadyByte_iff b, isReadyByte_eq_getLsbD b⟩, fun b c h => ?_⟩
  rw [isReadyByte_eq_getLsbD, isReadyByte_eq_getLsbD, h]

/-! ### The requests SEQ may issue -/

/-- What rule R95 lets SEQ ask for while it holds `op`: that command's own frame, a receive of one byte, or a delay of 10 TU. -/
def AllowedRequest (p : Params) (op : Op) (r : Request) : Prop :=
  (∃ bytes, frameOf p op = some bytes ∧ r = txRequest p bytes) ∨ r = rxRequest p ∨ r = .delay 10

/-- `t` keeps what `s` has emitted, and every request that is new in it is allowed for the op it holds. -/
def IssuesAllowed (s t : State) : Prop :=
  ∃ new : List Output, t.out = new ++ s.out ∧ ∀ r, .request r ∈ new → AllowedRequest s.params t.seq.op r

/-- The commands that transmit, and the frame of each. -/
theorem frameOf_cases {p : Params} {op : Op} {bytes : List Byte} (h : frameOf p op = some bytes) :
    (bytes = [p.cfgReg, 0x80] ∧ op = .standby) ∨
      (bytes = [p.cfgReg, 0x00] ∧ (op = .wakeup ∨ op = .wakeupAndRead)) ∨
      (bytes = [0x00] ∧ op = .readAfterConfig) := by
  cases op <;> simp_all [frameOf]

theorem issuesAllowed_of_silent {new : List Output} (hout : t.out = new ++ s.out) (h : ∀ o ∈ new, ∀ r, o ≠ .request r) :
    IssuesAllowed s t :=
  ⟨new, hout, fun r hr => absurd rfl (h _ hr r)⟩

theorem issuesAllowed_of_out_eq (h : t.out = s.out) : IssuesAllowed s t :=
  issuesAllowed_of_silent (new := []) h (by simp)

/-! ### The operations SEQ's meanings are built from -/

theorem issuesAllowed_issue {r : Request} (ph : Phase) (h : AllowedRequest s.params s.seq.op r) :
    IssuesAllowed s (issue r ph s) := by
  refine ⟨[.request r], rfl, fun r' hr => ?_⟩
  cases List.mem_singleton.1 hr
  exact h

theorem issuesAllowed_busTx {bytes : List Byte} (h : frameOf s.params s.seq.op = some bytes) :
    IssuesAllowed s (busTx bytes s) :=
  issuesAllowed_issue .tx (.inl ⟨bytes, h, rfl⟩)

theorem issuesAllowed_busRx (ph : Phase) : IssuesAllowed s (busRx ph s) := issuesAllowed_issue ph (.inr (.inl rfl))

theorem issuesAllowed_delay (ph : Phase) : IssuesAllowed s (delay 10 ph s) := issuesAllowed_issue ph (.inr (.inr rfl))

theorem issuesAllowed_complete (st : Status) (rdy : Bool) (b : Byte) : IssuesAllowed s (complete st rdy b s) :=
  issuesAllowed_of_silent (new := [_]) rfl (by simp)

/-- Latching the op emits nothing, so what is allowed after it is allowed from before it. -/
theorem issuesAllowed_of_accept {op : Op} (h : IssuesAllowed (accept op s) t) : IssuesAllowed s t := h

/-- Nor does counting a poll emit anything. -/
theorem issuesAllowed_of_polls {n : Nat} (h : IssuesAllowed { s with seq := { s.seq with polls := n } } t) :
    IssuesAllowed s t := h

theorem issuesAllowed_pollNotReady : IssuesAllowed s (pollNotReady s) := by
  rcases pollNotReady_cases s with ⟨-, h⟩ | ⟨-, h⟩ <;> rw [h]
  · exact issuesAllowed_of_polls (issuesAllowed_complete ..)
  · exact issuesAllowed_of_polls (issuesAllowed_delay _)

/-! ### Commands, answers and steps -/

theorem issuesAllowed_exec_command {i : Instr} (hi : i.isCommand = true) (h : exec i s = .next t) : IssuesAllowed s t := by
  rcases exec_command_cases hi h with rfl | ⟨-, h⟩
  · exact issuesAllowed_of_out_eq rfl
  rcases h with ⟨-, rfl⟩ | ⟨-, rfl⟩ | ⟨-, rfl⟩ | ⟨-, rfl⟩ | ⟨-, rfl⟩ | ⟨-, rfl⟩ | ⟨-, rfl⟩ | ⟨-, rfl⟩
  · exact issuesAllowed_of_accept (issuesAllowed_complete ..)
  · exact issuesAllowed_of_accept (issuesAllowed_busTx rfl)
  · exact issuesAllowed_of_accept (issuesAllowed_busTx rfl)
  · exact issuesAllowed_of_accept (issuesAllowed_busRx _)
  · exact issuesAllowed_of_accept (issuesAllowed_busTx rfl)
  · exact issuesAllowed_of_accept (issuesAllowed_busTx rfl)
  · exact issuesAllowed_of_accept (issuesAllowed_busRx _)
  · exact issuesAllowed_of_accept (issuesAllowed_complete ..)

theorem issuesAllowed_seqBusAnswer {a : BusAnswer} (h : seqBusAnswer a s = some t) : IssuesAllowed s t := by
  rcases seqBusAnswer_cases h with ⟨-, -, ⟨-, rfl⟩ | ⟨-, rfl⟩⟩ | ⟨b, -, -, ⟨-, rfl⟩ | ⟨-, -, rfl⟩ | ⟨-, -, rfl⟩⟩ |
    ⟨b, -, -, rfl⟩ | ⟨-, ⟨-, rfl⟩ | ⟨-, rfl⟩⟩
  · exact issuesAllowed_delay _
  · exact issuesAllowed_busRx _
  · exact issuesAllowed_complete ..
  · exact issuesAllowed_busRx _
  · exact issuesAllowed_pollNotReady
  all_goals exact issuesAllowed_complete ..

theorem issuesAllowed_seqDelayDone (h : seqDelayDone s = some t) : IssuesAllowed s t := by
  rcases seqDelayDone_cases h with ⟨-, ⟨-, rfl⟩ | ⟨-, rfl⟩⟩ | ⟨-, rfl⟩
  · exact issuesAllowed_complete ..
  all_goals exact issuesAllowed_busRx _

theorem issuesAllowed_turnStep {tn : Turn} (h : turnStep tn s = .next t) : IssuesAllowed s t := by
  cases tn with
  | offer =>
    rcases offerTurn_cases h with ⟨-, rfl⟩ | ⟨w, ws, -, h⟩
    · exact issuesAllowed_of_out_eq rfl
    · exact issuesAllowed_exec_command (decodeCmd_isCommand w) h
  | bus =>
    rcases busTurn_cases h with rfl | ⟨o, bs, a, u, -, -, hu, rfl⟩
    · exact issuesAllowed_of_out_eq rfl
    · exact issuesAllowed_seqBusAnswer (t := u) hu
  | timer =>
    rcases timerTurn_cases h with rfl | ⟨n, u, -, hu, rfl⟩
    · exact issuesAllowed_of_out_eq rfl
    · exact issuesAllowed_seqDelayDone (t := u) hu
  | event io =>
    obtain ⟨d, outs, h', ho, -⟩ := eventTurn_spec { s with ioFail := io }
    cases h'.symm.trans h
    exact issuesAllowed_of_silent rfl fun o hmem => (ho o hmem).1
  | sensor temp rdy =>
    cases h
    exact issuesAllowed_of_out_eq rfl
  | reset ptr standby answered =>
    cases h
    exact issuesAllowed_of_out_eq (resetBlock_out ..)

theorem issuesAllowed_step (h : step s = .next t) : IssuesAllowed s t := by
  rcases step_cases h with ⟨-, h⟩ | ⟨tn, rest, -, h⟩
  · cases h
    exact issuesAllowed_of_out_eq (replenish_out s)
  · exact issuesAllowed_turnStep (s := { s with turns := rest }) h

/-- Settles O27: every step issues allowed requests only, with the frames read off `frameOf`; and in IDLE an offer of a command
that transmits is taken with its frame as the first action. -/
theorem onlyTheThreeFramesAreSent : Obligations.OnlyTheThreeFramesAreSent := by
  refine ⟨fun s t h => ?_, fun s hidle i frame hi => ?_⟩
  · obtain ⟨new, hout, hnew⟩ := issuesAllowed_step h
    refine ⟨new, hout, fun r hr => ?_⟩
    rcases hnew r hr with ⟨bytes, hframe, rfl⟩ | hrx | hdelay
    · rcases frameOf_cases hframe with ⟨rfl, hop⟩ | ⟨rfl, hop⟩ | ⟨rfl, hop⟩
      · exact .inl ⟨rfl, hop⟩
      · exact .inr (.inl ⟨rfl, hop⟩)
      · exact .inr (.inr (.inl ⟨rfl, hop⟩))
    · exact .inr (.inr (.inr (.inl hrx)))
    · exact .inr (.inr (.inr (.inr hdelay)))
  · rcases hi with ⟨rfl, rfl⟩ | ⟨rfl, rfl⟩ | ⟨rfl, rfl⟩ | ⟨rfl, rfl⟩ <;>
      exact ⟨_, offered_idle _ _ hidle, rfl⟩

end Sys2Proof.Machine
end

section
/-! SUPPORT. How BUS's answer ends a command (40_sensor_sequencer.md rules R116, R118), and the two commands that only receive
(rules R122, R125): accepted in IDLE with one receive, they end on the answer to it. -/

namespace Sys2Proof.Machine

variable {s t : State}

/-! ### The answers that end a command, one lemma per row of rule R116 -/

theorem seqBusAnswer_data (b : Byte) (hp : s.seq.phase = .rxData) :
    seqBusAnswer (.rxOk b) s = some (complete .ok false b s) := by
  simp only [seqBusAnswer, hp]

theorem seqBusAnswer_isReady (b : Byte) (hp : s.seq.phase = .rxStatus) (hop : s.seq.op = .isReady) :
    seqBusAnswer (.rxOk b) s = some (complete .ok (isReadyByte b) 0x00 s) := by
  simp only [seqBusAnswer, hp, afterStatus, hop]

theorem seqBusAnswer_busFail (hp : s.seq.phase = .tx ∨ s.seq.phase = .rxStatus ∨ s.seq.phase = .rxData) :
    seqBusAnswer .busFail s = some (complete .busError false 0x00 s) := by
  rcases hp with hp | hp | hp <;> simp only [seqBusAnswer, hp]

theorem seqBusAnswer_busTimeout (hp : s.seq.phase = .tx ∨ s.seq.phase = .rxStatus ∨ s.seq.phase = .rxData) :
    seqBusAnswer .busTimeout s = some (complete .timeout false 0x00 s) := by
  rcases hp with hp | hp | hp <;> simp only [seqBusAnswer, hp]

/-- SEQ takes an answer of BUS only where it waits for one. -/
theorem phase_of_seqBusAnswer {a : BusAnswer} (h : seqBusAnswer a s = some t) :
    s.seq.phase = .tx ∨ s.seq.phase = .rxStatus ∨ s.seq.phase = .rxData := by
  rcases seqBusAnswer_cases h with ⟨hp, -⟩ | ⟨b, hp, -⟩ | ⟨b, hp, -⟩ | ⟨hp, -⟩
  · exact .inl hp
  · exact .inr (.inl hp)
  · exact .inr (.inr hp)
  · exact hp

/-! ### The sensor after a receive -/

theorem sensorAfter_rxOk (p : Params) (pending : Option Request) (b : Byte) (z : Sensor) :
    sensorAfter p pending (.rxOk b) z = z := by
  rcases pending with _ | ⟨_ | _ | _⟩ <;> rfl

/-- 20_memory.md rule R66: a receive leaves the sensor unchanged, however it ends. -/
theorem sensorAfter_rxRequest (p : Params) (o : BusOutcome) (z : Sensor) :
    sensorAfter p (some (rxRequest p)) o z = z := by
  cases o <;> rfl

/-! ### Steps and runs that end a command -/

/-- A step on an answer of BUS that ends the command, in full. -/
theorem step_bus_ends {o : BusOutcome} {bs : List BusOutcome} {a : BusAnswer} {ts : List Turn} {st : Status} {rdy : Bool}
    {b : Byte} (ht : s.turns = .bus :: ts) (hb : s.busPort = o :: bs) (ha : busAnswer s.params s.sensor o = some a)
    (hu : seqBusAnswer a { s with turns := ts } = some (complete st rdy b { s with turns := ts })) :
    step s = .next (endedState s s.seq.op s.seq.polls ⟨st, rdy, b⟩ (sensorAfter s.params s.seq.pending o s.sensor)
      s.cmdPort bs s.timerPort ts []) := by
  have hp : s.seq.phase = .tx ∨ s.seq.phase = .rxStatus ∨ s.seq.phase = .rxData :=
    phase_of_seqBusAnswer (s := { s with turns := ts }) hu
  have h6 : s.seq.phase ≠ .code6 := by rcases hp with hp | hp | hp <;> simp [hp]
  have h7 : s.seq.phase ≠ .code7 := by rcases hp with hp | hp | hp <;> simp [hp]
  exact step_bus ht hb h6 h7 ha hu

/-- Settles O26: the byte goes into the response as it is, and a received byte leaves the sensor as it was. -/
theorem dataByteIsNotChecked : Obligations.DataByteIsNotChecked := by
  intro s b z bs ts hp ht hb
  have h := step_bus_ends (s := { s with sensor := z }) (a := .rxOk b) ht hb rfl (seqBusAnswer_data b hp)
  rwa [sensorAfter_rxOk] at h

/-- A command whose first action is a receive, from IDLE to its end: its offer is taken, and BUS's answer ends it. -/
theorem runs_receive {w : CmdWord} {ws : List CmdWord} {op : Op} {ph : Phase} {o : BusOutcome} {bs : List BusOutcome}
    {a : BusAnswer} {ts : List Turn} {st : Status} {rdy : Bool} {b : Byte}
    (hw : ∀ v, exec (decodeCmd w) v = offered op (busRx ph) v) (hidle : s.seq.phase = .idle) (hc : s.cmdPort = w :: ws)
    (ht : s.turns = .offer :: .bus :: ts) (hb : s.busPort = o :: bs) (ha : busAnswer s.params s.sensor o = some a)
    (hend : ∀ v, v.seq.phase = ph → v.seq.op = op → seqBusAnswer a v = some (complete st rdy b v)) :
    Runs 2 s (endedState s op 0 ⟨st, rdy, b⟩ s.sensor ws bs s.timerPort ts [rxRequest s.params]) := by
  have hoffer : step s = .next (busRx ph (accept op { s with turns := .bus :: ts })) := by
    rw [step_offer ht hc, hw]
    exact offered_idle op (busRx ph) hidle
  have hanswer := step_bus_ends (s := busRx ph (accept op { s with turns := .bus :: ts })) rfl hb ha (hend _ rfl rfl)
  refine runs_cons hoffer (runs_cons hanswer (runs_zero.2 ?_))
  show endedState s op 0 ⟨st, rdy, b⟩ (sensorAfter s.params (some (rxRequest s.params)) o s.sensor) s.cmdPort.tail bs
    s.timerPort ts [rxRequest s.params] = _
  rw [sensorAfter_rxRequest, hc, List.tail_cons]

/-- Settles O31: IS_READY ends on the answer to its status receive, with bit 6 of the byte or the failure. -/
theorem isReadyRun : Obligations.IsReadyRun := by
  intro s ws o bs ts hidle hc ht hb
  refine ⟨fun b ha => ?_, fun ha => ?_, fun ha => ?_⟩ <;> refine runs_receive (fun _ => rfl) hidle hc ht hb ha ?_
  · exact fun v hp hop => seqBusAnswer_isReady b hp hop
  · exact fun v hp _ => seqBusAnswer_busFail (.inr (.inl hp))
  · exact fun v hp _ => seqBusAnswer_busTimeout (.inr (.inl hp))

/-- Settles O32: READ_AFTER_TEMP ends on the answer to its data receive, with the byte or the failure. -/
theorem readAfterTempRun : Obligations.ReadAfterTempRun := by
  intro s ws o bs ts hidle hc ht hb
  refine ⟨fun b ha => ?_, fun ha => ?_, fun ha => ?_⟩ <;> refine runs_receive (fun _ => rfl) hidle hc ht hb ha ?_
  · exact fun v hp _ => seqBusAnswer_data b hp
  · exact fun v hp _ => seqBusAnswer_busFail (.inr (.inr hp))
  · exact fun v hp _ => seqBusAnswer_busTimeout (.inr (.inr hp))

end Sys2Proof.Machine
end

section
/-! SUPPORT. One request at a time (40_sensor_sequencer.md rule R112): whatever SEQ does, a request it issues is then the pending
one; and the invariant says what was pending in the phase that issued it. -/

namespace Sys2Proof.Machine

variable {s t : State}

/-! ### A request issued is the one pending -/

/-- If `t` has emitted just a request since `before` was emitted, that request is pending in `t`. -/
def IssuedIsPending (before : List Output) (t : State) : Prop :=
  ∀ r, t.out = .request r :: before → t.seq.pending = some r

theorem issuedIsPending_of_out_eq {before : List Output} (h : t.out = before) : IssuedIsPending before t :=
  fun _ hr => absurd (h.symm.trans hr) List.ne_cons_self

theorem issuedIsPending_issue {r : Request} {ph : Phase} : IssuedIsPending s.out (issue r ph s) := by
  intro r' hr
  cases hr
  rfl

theorem issuedIsPending_complete {st : Status} {rdy : Bool} {b : Byte} : IssuedIsPending s.out (complete st rdy b s) := by
  intro r hr
  cases hr

theorem issuedIsPending_pollNotReady : IssuedIsPending s.out (pollNotReady s) := by
  rcases pollNotReady_cases s with ⟨-, h⟩ | ⟨-, h⟩ <;> rw [h]
  · exact issuedIsPending_complete
  · exact issuedIsPending_issue

theorem issuedIsPending_exec_command {i : Instr} (hi : i.isCommand = true) (h : exec i s = .next t) :
    IssuedIsPending s.out t := by
  rcases exec_command_cases hi h with rfl | ⟨-, h⟩
  · exact issuedIsPending_of_out_eq rfl
  rcases h with ⟨-, rfl⟩ | ⟨-, rfl⟩ | ⟨-, rfl⟩ | ⟨-, rfl⟩ | ⟨-, rfl⟩ | ⟨-, rfl⟩ | ⟨-, rfl⟩ | ⟨-, rfl⟩
  · exact issuedIsPending_complete
  · exact issuedIsPending_issue
  · exact issuedIsPending_issue
  · exact issuedIsPending_issue
  · exact issuedIsPending_issue
  · exact issuedIsPending_issue
  · exact issuedIsPending_issue
  · exact issuedIsPending_complete

theorem issuedIsPending_seqBusAnswer {a : BusAnswer} (h : seqBusAnswer a s = some t) : IssuedIsPending s.out t := by
  rcases seqBusAnswer_cases h with ⟨-, -, ⟨-, rfl⟩ | ⟨-, rfl⟩⟩ | ⟨b, -, -, ⟨-, rfl⟩ | ⟨-, -, rfl⟩ | ⟨-, -, rfl⟩⟩ |
    ⟨b, -, -, rfl⟩ | ⟨-, ⟨-, rfl⟩ | ⟨-, rfl⟩⟩
  · exact issuedIsPending_issue
  · exact issuedIsPending_issue
  · exact issuedIsPending_complete
  · exact issuedIsPending_issue
  · exact issuedIsPending_pollNotReady
  all_goals exact issuedIsPending_complete

theorem issuedIsPending_seqDelayDone (h : seqDelayDone s = some t) : IssuedIsPending s.out t := by
  rcases seqDelayDone_cases h with ⟨-, ⟨-, rfl⟩ | ⟨-, rfl⟩⟩ | ⟨-, rfl⟩
  · exact issuedIsPending_complete
  all_goals exact issuedIsPending_issue

/-! ### What is pending where SEQ can issue a request -/

theorem pending_of_idle (h : SeqConsistent s) (hp : s.seq.phase = .idle) : s.seq.pending = none := by
  rw [h.2, hp]
  rfl

/-- Where SEQ waits for BUS, no delay is pending. -/
theorem pending_ne_delay (h : SeqConsistent s)
    (hp : s.seq.phase = .tx ∨ s.seq.phase = .rxStatus ∨ s.seq.phase = .rxData) (n : Nat) :
    s.seq.pending ≠ some (.delay n) := by
  rw [h.2]
  rcases hp with hp | hp | hp <;> simp [hp, pendingOf]

/-- Where SEQ waits for TIMER, a delay is pending. -/
theorem pending_eq_delay (h : SeqConsistent s) (hp : s.seq.phase = .settle ∨ s.seq.phase = .pollWait) :
    s.seq.pending = some (.delay 10) := by
  rw [h.2]
  rcases hp with hp | hp <;> rw [hp] <;> rfl

/-- SEQ takes TIMER's answer only where it waits for it. -/
theorem phase_of_seqDelayDone (h : seqDelayDone s = some t) : s.seq.phase = .settle ∨ s.seq.phase = .pollWait := by
  rcases seqDelayDone_cases h with ⟨hp, -⟩ | ⟨hp, -⟩
  · exact .inl hp
  · exact .inr hp

/-! ### The turns that issue a request -/

/-- What rule R112 asks of a step from `s` to `t` that issues a request: nothing was pending, or the answer to what was pending
is consumed. -/
def FreeToIssue (s t : State) : Prop :=
  s.seq.pending = none ∨
    ((∃ o, s.busPort = o :: t.busPort) ∧ s.timerPort = t.timerPort ∧ ∀ n, s.seq.pending ≠ some (.delay n)) ∨
    (s.timerPort = t.timerPort + 1 ∧ s.busPort = t.busPort ∧ ∃ n, s.seq.pending = some (.delay n))

variable {r : Request}

theorem offerTurn_request (hs : SeqConsistent s) (h : offerTurn s = .next t) (hr : t.out = .request r :: s.out) :
    t.seq.pending = some r ∧ FreeToIssue s t := by
  rcases offerTurn_cases h with ⟨-, rfl⟩ | ⟨w, ws, -, h⟩
  · exact absurd hr List.ne_cons_self
  refine ⟨issuedIsPending_exec_command (decodeCmd_isCommand w) h r hr, ?_⟩
  rcases exec_command_cases (decodeCmd_isCommand w) h with rfl | ⟨hidle, -⟩
  · exact absurd hr List.ne_cons_self
  · exact .inl (pending_of_idle hs hidle)

theorem busTurn_request (hs : SeqConsistent s) (h : busTurn s = .next t) (hr : t.out = .request r :: s.out) :
    t.seq.pending = some r ∧ FreeToIssue s t := by
  rcases busTurn_cases h with rfl | ⟨o, bs, a, u, hb, -, hu, rfl⟩
  · exact absurd hr List.ne_cons_self
  obtain ⟨-, -, -, -, -, -, htimer, -⟩ := seqBusAnswer_frame hu
  exact ⟨issuedIsPending_seqBusAnswer hu r hr,
    .inr (.inl ⟨⟨o, hb⟩, htimer.symm, pending_ne_delay hs (phase_of_seqBusAnswer hu)⟩)⟩

theorem timerTurn_request (hs : SeqConsistent s) (h : timerTurn s = .next t) (hr : t.out = .request r :: s.out) :
    t.seq.pending = some r ∧ FreeToIssue s t := by
  rcases timerTurn_cases h with rfl | ⟨n, u, hn, hu, rfl⟩
  · exact absurd hr List.ne_cons_self
  obtain ⟨-, -, -, -, -, hbus, -⟩ := seqDelayDone_frame hu
  exact ⟨issuedIsPending_seqDelayDone hu r hr,
    .inr (.inr ⟨hn, hbus.symm, 10, pending_eq_delay hs (phase_of_seqDelayDone hu)⟩)⟩

theorem eventTurn_out_ne_request (h : eventTurn s = .next t) : t.out ≠ .request r :: s.out := by
  obtain ⟨d, outs, h', ho, -⟩ := eventTurn_spec s
  cases h'.symm.trans h
  intro hr
  have houts : outs = [.request r] := List.append_cancel_right hr
  exact (ho (.request r) (by simp [houts])).1 r rfl

/-- Settles O28: only SEQ's turns issue a request. An offer is taken in IDLE, where the invariant leaves nothing pending; an answer
is taken in a phase where the invariant has a request to the agent that answers. -/
theorem oneRequestAtATime : Obligations.OneRequestAtATime := by
  intro s t r hinv h hr
  rcases step_cases h with ⟨-, h⟩ | ⟨tn, rest, -, h⟩
  · cases h
    exact absurd ((replenish_out s).symm.trans hr) List.ne_cons_self
  cases tn with
  | offer => exact offerTurn_request (s := { s with turns := rest }) hinv.seq h hr
  | bus => exact busTurn_request (s := { s with turns := rest }) hinv.seq h hr
  | timer => exact timerTurn_request (s := { s with turns := rest }) hinv.seq h hr
  | event io => exact absurd hr (eventTurn_out_ne_request (s := { s with turns := rest, ioFail := io }) h)
  | sensor temp rdy =>
    cases h
    exact absurd hr List.ne_cons_self
  | reset ptr standby answered =>
    cases h
    exact absurd ((resetBlock_out ..).symm.trans hr) List.ne_cons_self

end Sys2Proof.Machine
end

section
/-! SUPPORT. BUS_ERROR (60_exceptions.md rule R181): a transaction that BUS fails ends the command in that step. -/

namespace Sys2Proof.Machine

/-- Rules R93, R180: the response word of BUS_ERROR has `data` 0x00, `ready` 0 and status code 1. -/
theorem busError_word : Rsp.word ⟨.busError, false, 0x00⟩ = 0x001 := by decide

/-- Settles O21: whichever phase waits for BUS, BusFail completes the command there (rule R116), and a step on an answer that
completes the command leaves exactly the ended state, with the sensor as the transaction left it. -/
theorem busFailureEndsCommand : Obligations.BusFailureEndsCommand := by
  intro s ts o bs hp ht hb ha
  have hfail : seqBusAnswer .busFail { s with turns := ts } = some (complete .busError false 0x00 { s with turns := ts }) :=
    seqBusAnswer_busFail hp
  exact ⟨step_bus_ends ht hb ha hfail, busError_word⟩

end Sys2Proof.Machine
end

section
/-! SUPPORT. The words of 30_encoding.md: an event word and its three fields determine each other, so the encoder and the decoder
undo each other; a port word and its bytes do (log 17); and the fields of a response word are what it was built from. -/

namespace Sys2Proof

/-! ### Event words -/

@[simp] theorem evtKind_evtWord (kind : BitVec 2) (value base : Byte) : evtKind (evtWord kind value base) = kind :=
  BitVec.extractLsb'_append_eq_right

@[simp] theorem evtValue_evtWord (kind : BitVec 2) (value base : Byte) : evtValue (evtWord kind value base) = value :=
  (BitVec.extractLsb'_append_eq_of_le (Nat.le_refl 2)).trans BitVec.extractLsb'_append_eq_right

@[simp] theorem evtBase_evtWord (kind : BitVec 2) (value base : Byte) : evtBase (evtWord kind value base) = base :=
  (BitVec.extractLsb'_append_eq_of_le (by decide : 2 ≤ 10)).trans BitVec.extractLsb'_append_eq_left

/-- Rule R92: the three fields, put side by side, are the whole word. -/
theorem evtWord_fields (w : EvtWord) : evtWord (evtKind w) (evtValue w) (evtBase w) = w := by
  have hupper : evtBase w ++ evtValue w = w.extractLsb' 2 16 := BitVec.extractLsb'_append_extractLsb'_eq_extractLsb' rfl
  rw [evtWord, hupper]
  exact BitVec.extractLsb'_append_extractLsb' (w := 16) (len := 2)

theorem decodeEvt_evtWord_tickA (value base : Byte) : decodeEvt (evtWord 1 value base) = .ok .tickA := by
  simp [decodeEvt]

theorem decodeEvt_evtWord_tickB (value base : Byte) : decodeEvt (evtWord 2 value base) = .ok .tickB := by
  simp [decodeEvt]

theorem decodeEvt_evtWord_updateDisplay (value base : Byte) :
    decodeEvt (evtWord 3 value base) = .ok (.updateDisplay value base) := by
  simp [decodeEvt]

theorem decodeEvt_noEvent_iff (w : EvtWord) : decodeEvt w = .error .noEvent ↔ evtKind w = 0 := by
  unfold decodeEvt
  split <;> simp_all

/-! ### Command words -/

theorem encode_decodeCmd (w : CmdWord) : encode (decodeCmd w) = .cmd w := by
  revert w
  decide

theorem decode_encode (i : Instr) : decode (encode i) = .ok i := by
  cases i with
  | tickA => exact decodeEvt_evtWord_tickA 0 0
  | tickB => exact decodeEvt_evtWord_tickB 0 0
  | updateDisplay value base => exact decodeEvt_evtWord_updateDisplay value base
  | _ => rfl

theorem operandOk_toNat (v : Byte) : operandOk v.toNat = true := by
  have := v.isLt
  simp only [operandOk, decide_eq_true_eq]
  omega

theorem wellFormed_eq_true (i : Instr) : i.wellFormed = true := by
  cases i with
  | updateDisplay value base => simp [Instr.wellFormed, operandOk_toNat]
  | _ => rfl

/-- Settles O1: every instruction's operands are bytes, and its word is read back field by field. -/
theorem decodeEncodeAgree : Obligations.DecodeEncodeAgree := fun i => ⟨wellFormed_eq_true i, decode_encode i⟩

/-- Settles O2: an event word is its three fields, of which a tick reads the kind alone. -/
theorem decodedWordIsEncodedBack : Obligations.DecodedWordIsEncodedBack := by
  refine ⟨encode_decodeCmd, decodeEvt_noEvent_iff, fun w i hd => ?_⟩
  rcases Machine.decodeEvt_cases hd with ⟨rfl, hk⟩ | ⟨rfl, hk⟩ | ⟨rfl, hk⟩
  · exact ⟨_, rfl, (evtKind_evtWord ..).trans hk.symm, fun h => absurd rfl h⟩
  · exact ⟨_, rfl, (evtKind_evtWord ..).trans hk.symm, fun _ h => absurd rfl h⟩
  · exact ⟨_, rfl, (evtKind_evtWord ..).trans hk.symm, fun _ _ => (congrArg (evtWord · _ _) hk.symm).trans (evtWord_fields w)⟩

/-- Settles O3: each word is read by computing its kind and its fields. -/
theorem specWordsDecode : Obligations.SpecWordsDecode := ⟨rfl, rfl, rfl, rfl, rfl, rfl, rfl, rfl, rfl, rfl⟩

/-! ### Port words in bytes -/

theorem wordOfBytes_cmd (w : CmdWord) : wordOfBytes (bytesOfWord (.cmd w)) = .ok (.cmd w) := by
  revert w
  decide

/-- The three bytes of an event word, the third with its upper six bits 0, hold the word. -/
theorem setWidth_evtBytes (w : EvtWord) :
    ((w.extractLsb' 16 2).setWidth 8 ++ w.extractLsb' 8 8 ++ w.extractLsb' 0 8 : BitVec 24).setWidth 18 = w := by
  have htop : ((w.extractLsb' 16 2).setWidth 8 ++ w.extractLsb' 8 8).setWidth 10 = w.extractLsb' 8 10 := by
    refine (BitVec.setWidth_append_of_eq (v' := 2) rfl).trans ?_
    rw [BitVec.setWidth_setWidth_of_le _ (by decide), BitVec.setWidth_eq, BitVec.setWidth_eq]
    exact BitVec.extractLsb'_append_extractLsb'_eq_extractLsb' rfl
  refine (BitVec.setWidth_append_of_eq (v' := 10) rfl).trans ?_
  rw [htop, BitVec.setWidth_eq]
  exact BitVec.extractLsb'_append_extractLsb' (w := 10) (len := 8)

theorem wordOfBytes_evt (w : EvtWord) : wordOfBytes (bytesOfWord (.evt w)) = .ok (.evt w) := by
  have htop : ((w.extractLsb' 16 2).setWidth 8).toNat < 2 ^ 2 := by
    rw [BitVec.toNat_setWidth]
    exact (Nat.mod_le _ _).trans_lt (w.extractLsb' 16 2).isLt
  simp only [bytesOfWord, wordOfBytes, htop, if_true, setWidth_evtBytes]

theorem wordOfBytes_bytesOfWord (w : PortWord) : wordOfBytes (bytesOfWord w) = .ok w := by
  cases w with
  | cmd c => exact wordOfBytes_cmd c
  | evt e => exact wordOfBytes_evt e

/-- Settles O4: the decoder of bytes reads the word that the bytes hold. -/
theorem portBytesRoundTrip : Obligations.PortBytesRoundTrip := fun w =>
  ⟨wordOfBytes_bytesOfWord w, by rw [decodeBytes, wordOfBytes_bytesOfWord]⟩

/-! ### Response words -/

namespace Machine

/-- Settles O5: the word is the three fields put side by side (rule R93), and each is cut out again. -/
theorem responseWordFields : Obligations.ResponseWordFields := by
  refine fun st ready data => ⟨BitVec.extractLsb'_append_eq_right, ?_, ?_⟩
  · rw [Rsp.word, BitVec.getLsbD_append, BitVec.getLsbD_append]
    simp
  · exact (BitVec.extractLsb'_append_eq_of_le (by decide : 3 ≤ 4)).trans BitVec.extractLsb'_append_eq_left

end Machine

end Sys2Proof
end

section
/-! SUPPORT. What a step can do to SEQ, said once in terms of SEQ's registers alone: `SeqMove` has one case for each way SEQ moves in
the step table of 40_sensor_sequencer.md rule R116, and `step_seq` says that a step outside reset leaves SEQ alone or is one of
them. The invariant and the laws of SEQ's responses are then case analyses of `SeqMove`. -/

namespace Sys2Proof.Machine

variable {s t : State} {p : Params} {q q' : Seq} {o : Output}

/-- A phase from which a status poll is still to come (10_state.md rule R33). -/
def PollToCome (ph : Phase) : Prop := ph = .tx ∨ ph = .settle ∨ ph = .rxStatus ∨ ph = .pollWait

/-- What a command that was begun can end with: OK with a legal response, BUS_ERROR, or, where a timeout is told apart and can
happen, TIMEOUT (60_exceptions.md rules R180 to R182). -/
def Ends (p : Params) (r : Rsp) : Prop :=
  (r.status = .ok ∧ RspLegal r = true) ∨ r = ⟨.busError, false, 0x00⟩ ∨
    (r = ⟨.timeout, false, 0x00⟩ ∧ p.timeoutDistinct = true ∧ p.busTimeout ≠ .infinite)

/-- A move of SEQ under the parameters `p`: from the registers `q` to others, with what it emits. -/
inductive SeqMove (p : Params) (q : Seq) : Seq → Output → Prop where
  /-- A command is accepted in IDLE and issues its first request. -/
  | accept (op : Op) (ph : Phase) (r : Request) (hidle : q.phase = .idle) (hpair : legalPair ph op = true)
      (hr : pendingOf p ph op = some r) :
      SeqMove p q { q with phase := ph, op := op, polls := 0, pending := some r } (.request r)
  /-- A reserved code is accepted in IDLE and completes at once. -/
  | reject (op : Op) (hidle : q.phase = .idle) :
      SeqMove p q { phase := .idle, op := op, polls := 0, rsp := ⟨.illegalCmd, false, 0x00⟩, pending := none }
        (.rsp (Rsp.word ⟨.illegalCmd, false, 0x00⟩))
  /-- An answer leads to the command's next request. -/
  | proceed (ph : Phase) (r : Request) (hbusy : q.phase ≠ .idle)
      (hpair : legalPair q.phase q.op = true → legalPair ph q.op = true) (hr : pendingOf p ph q.op = some r)
      (hpoll : PollToCome ph → PollToCome q.phase) :
      SeqMove p q { q with phase := ph, pending := some r } (.request r)
  /-- A not-ready poll below the limit is counted, and the poll delay begins. -/
  | pollAgain (hph : q.phase = .rxStatus) (hop : q.op = .wakeupAndRead) (hlimit : pollLimitMet p (q.polls + 1) = false) :
      SeqMove p q { q with phase := .pollWait, polls := q.polls + 1, pending := some (.delay 10) } (.request (.delay 10))
  /-- A not-ready poll at the limit ends the command. -/
  | pollLimit (hph : q.phase = .rxStatus) (hlimit : pollLimitMet p (q.polls + 1) = true) :
      SeqMove p q
        { q with phase := .idle, polls := q.polls + 1, rsp := ⟨.pollLimit, false, 0x00⟩, pending := none }
        (.rsp (Rsp.word ⟨.pollLimit, false, 0x00⟩))
  /-- An answer ends the command. -/
  | complete (r : Rsp) (hbusy : q.phase ≠ .idle) (hr : Ends p r) :
      SeqMove p q { q with phase := .idle, rsp := r, pending := none } (.rsp r.word)

/-! ### Commands and answers are moves -/

/-- A SEQ command is held, or accepted in IDLE and taken from the port. -/
theorem seqMove_of_exec {i : Instr} (hi : i.isCommand = true) (h : exec i s = .next t) :
    t = s ∨ s.seq.phase = .idle ∧ t.cmdPort = s.cmdPort.tail ∧ ∃ o, SeqMove s.params s.seq t.seq o ∧ t.out = o :: s.out := by
  rcases exec_command_cases hi h with rfl | ⟨hidle, h⟩
  · exact .inl rfl
  refine .inr ⟨hidle, ?_⟩
  rcases h with ⟨-, rfl⟩ | ⟨-, rfl⟩ | ⟨-, rfl⟩ | ⟨-, rfl⟩ | ⟨-, rfl⟩ | ⟨-, rfl⟩ | ⟨-, rfl⟩ | ⟨-, rfl⟩
  · exact ⟨rfl, _, .reject .reserved000 hidle, rfl⟩
  · exact ⟨rfl, _, .accept .standby .tx _ hidle rfl rfl, rfl⟩
  · exact ⟨rfl, _, .accept .wakeup .tx _ hidle rfl rfl, rfl⟩
  · exact ⟨rfl, _, .accept .isReady .rxStatus _ hidle rfl rfl, rfl⟩
  · exact ⟨rfl, _, .accept .wakeupAndRead .tx _ hidle rfl rfl, rfl⟩
  · exact ⟨rfl, _, .accept .readAfterConfig .tx _ hidle rfl rfl, rfl⟩
  · exact ⟨rfl, _, .accept .readAfterTemp .rxData _ hidle rfl rfl, rfl⟩
  · exact ⟨rfl, _, .reject .reserved111 hidle, rfl⟩

/-- 40_sensor_sequencer.md rule R114: BUS answers BusTimeout only where a timeout can happen and is told apart. -/
theorem busAnswer_eq_busTimeout {z : Sensor} {b : BusOutcome} (h : busAnswer p z b = some .busTimeout) :
    p.timeoutDistinct = true ∧ p.busTimeout ≠ .infinite := by
  cases b <;> simp only [busAnswer, Option.some.injEq, reduceCtorEq] at h
  unfold expiredAnswer at h
  split at h <;> simp_all

/-- SEQ takes an answer of BUS in a busy phase only. -/
theorem busy_of_seqBusAnswer {a : BusAnswer} (h : seqBusAnswer a s = some t) :
    s.seq.phase ≠ .idle ∧ s.seq.phase ≠ .code6 ∧ s.seq.phase ≠ .code7 := by
  rcases phase_of_seqBusAnswer h with hp | hp | hp <;> simp [hp]

/-- SEQ takes TIMER's answer in a busy phase only. -/
theorem busy_of_seqDelayDone (h : seqDelayDone s = some t) :
    s.seq.phase ≠ .idle ∧ s.seq.phase ≠ .code6 ∧ s.seq.phase ≠ .code7 := by
  rcases phase_of_seqDelayDone h with hp | hp <;> simp [hp]

/-- An answer of BUS that SEQ takes is a move. -/
theorem seqMove_of_seqBusAnswer {a : BusAnswer}
    (ha : a = .busTimeout → s.params.timeoutDistinct = true ∧ s.params.busTimeout ≠ .infinite)
    (h : seqBusAnswer a s = some t) :
    s.seq.phase ≠ .idle ∧ ∃ o, SeqMove s.params s.seq t.seq o ∧ t.out = o :: s.out := by
  have hbusy := (busy_of_seqBusAnswer h).1
  refine ⟨hbusy, ?_⟩
  rcases seqBusAnswer_cases h with ⟨hp, -, ⟨hop, rfl⟩ | ⟨hop, rfl⟩⟩ |
    ⟨b, hp, -, ⟨-, rfl⟩ | ⟨hop, -, rfl⟩ | ⟨hop, -, rfl⟩⟩ | ⟨b, -, -, rfl⟩ | ⟨-, ⟨-, rfl⟩ | ⟨hto, rfl⟩⟩
  · refine ⟨_, .proceed .settle _ hbusy (fun _ => ?_) rfl (fun _ => .inl hp), rfl⟩
    rcases hop with hop | hop | hop <;> rw [hop] <;> rfl
  · exact ⟨_, .proceed .rxData _ hbusy (fun _ => by rw [hop]; rfl) rfl (fun _ => .inl hp), rfl⟩
  · exact ⟨_, .complete ⟨.ok, isReadyByte b, 0x00⟩ hbusy (.inl ⟨rfl, by simp [RspLegal]⟩), rfl⟩
  · exact ⟨_, .proceed .rxData _ hbusy (fun _ => by rw [hop]; rfl) rfl (fun _ => .inr (.inr (.inl hp))), rfl⟩
  · rcases pollNotReady_cases s with ⟨hl, h⟩ | ⟨hl, h⟩ <;> rw [h]
    · exact ⟨_, .pollLimit hp hl, rfl⟩
    · exact ⟨_, .pollAgain hp hop hl, rfl⟩
  · exact ⟨_, .complete ⟨.ok, false, b⟩ hbusy (.inl ⟨rfl, by simp [RspLegal]⟩), rfl⟩
  · exact ⟨_, .complete _ hbusy (.inr (.inl rfl)), rfl⟩
  · exact ⟨_, .complete _ hbusy (.inr (.inr ⟨rfl, ha hto⟩)), rfl⟩

/-- TIMER's answer, where SEQ takes it, is a move. -/
theorem seqMove_of_seqDelayDone (h : seqDelayDone s = some t) :
    s.seq.phase ≠ .idle ∧ ∃ o, SeqMove s.params s.seq t.seq o ∧ t.out = o :: s.out := by
  have hbusy := (busy_of_seqDelayDone h).1
  refine ⟨hbusy, ?_⟩
  rcases seqDelayDone_cases h with ⟨hp, ⟨-, rfl⟩ | ⟨hop, rfl⟩⟩ | ⟨hp, rfl⟩
  · exact ⟨_, .complete _ hbusy (.inl ⟨rfl, rfl⟩), rfl⟩
  · exact ⟨_, .proceed .rxStatus _ hbusy (fun _ => by rw [hop]; rfl) rfl (fun _ => .inr (.inl hp)), rfl⟩
  · refine ⟨_, .proceed .rxStatus _ hbusy (fun hpair => ?_) rfl (fun _ => .inr (.inr (.inr hp))), rfl⟩
    have hop : s.seq.op = .wakeupAndRead := by simpa [hp, legalPair] using hpair
    rw [hop]
    rfl

/-! ### A step's effect on SEQ -/

theorem openCommands_of_idle (h : s.seq.phase = .idle) : openCommands s = s.cmdPort.length := by
  simp [openCommands, h]

theorem openCommands_of_busy (h : s.seq.phase ≠ .idle) : openCommands s = s.cmdPort.length + 1 := by
  simp [openCommands, h]

/-- A turn of SEQ leaves SEQ and its command port alone, or is a move; then a command was open, beside those that stay on offer. -/
theorem turnStep_seq {tn : Turn} (hs : tn = .offer ∨ tn = .bus ∨ tn = .timer) (h : turnStep tn s = .next t) :
    (t.seq = s.seq ∧ t.out = s.out ∧ t.cmdPort = s.cmdPort) ∨
      ∃ o, SeqMove s.params s.seq t.seq o ∧ t.out = o :: s.out ∧ openCommands s = t.cmdPort.length + 1 := by
  rcases hs with rfl | rfl | rfl
  · rcases offerTurn_cases h with ⟨-, rfl⟩ | ⟨w, ws, hport, h⟩
    · exact .inl ⟨rfl, rfl, rfl⟩
    rcases seqMove_of_exec (decodeCmd_isCommand w) h with rfl | ⟨hidle, htail, o, hmove, hout⟩
    · exact .inl ⟨rfl, rfl, rfl⟩
    · refine .inr ⟨o, hmove, hout, ?_⟩
      rw [openCommands_of_idle hidle, htail, hport, List.tail_cons, List.length_cons]
  · rcases busTurn_cases h with rfl | ⟨b, bs, a, u, -, ha, hu, rfl⟩
    · exact .inl ⟨rfl, rfl, rfl⟩
    obtain ⟨-, -, -, hcmd, -⟩ := seqBusAnswer_frame hu
    obtain ⟨hbusy, o, hmove, hout⟩ := seqMove_of_seqBusAnswer (fun hto => busAnswer_eq_busTimeout (hto ▸ ha)) hu
    refine .inr ⟨o, hmove, hout, ?_⟩
    show openCommands s = u.cmdPort.length + 1
    rw [openCommands_of_busy hbusy, hcmd]
  · rcases timerTurn_cases h with rfl | ⟨n, u, -, hu, rfl⟩
    · exact .inl ⟨rfl, rfl, rfl⟩
    obtain ⟨-, -, -, hcmd, -⟩ := seqDelayDone_frame hu
    obtain ⟨hbusy, o, hmove, hout⟩ := seqMove_of_seqDelayDone hu
    refine .inr ⟨o, hmove, hout, ?_⟩
    show openCommands s = u.cmdPort.length + 1
    rw [openCommands_of_busy hbusy, hcmd]

/-- What a step can do to SEQ: reset it; leave it alone, with no SEQ response emitted, and its command port too unless an arrival
joins it; or move it. -/
theorem step_seq (h : step s = .next t) :
    ((∃ ptr standby ans ts, s.turns = .reset ptr standby ans :: ts) ∧ t.seq = .reset ∧ t.out = s.out) ∨
      (t.seq = s.seq ∧ (∃ new, t.out = new ++ s.out ∧ ∀ o ∈ new, o.isRsp = false) ∧
        (s.turns = [] ∧ t = replenish s ∨ t.cmdPort = s.cmdPort)) ∨
      (s.turns ≠ [] ∧ ∃ o, SeqMove s.params s.seq t.seq o ∧ t.out = o :: s.out ∧ openCommands s = t.cmdPort.length + 1) := by
  have h0 := h
  rcases step_cases h with ⟨ht, h⟩ | ⟨tn, rest, ht, h⟩
  · cases h
    exact .inr (.inl ⟨replenish_seq s, ⟨[], replenish_out s, by simp⟩, .inl ⟨ht, rfl⟩⟩)
  have seqUnit (hs : tn = .offer ∨ tn = .bus ∨ tn = .timer) := turnStep_seq (s := { s with turns := rest }) hs h
  have hturns : s.turns ≠ [] := by simp [ht]
  cases tn with
  | event io =>
    obtain ⟨hseq, -, -, hcmd, -, -, -, -, -, ⟨new, hout, hnew⟩, -⟩ := step_event_frame ht h0
    refine .inr (.inl ⟨hseq, ⟨new, hout, fun o ho => ?_⟩, .inr hcmd⟩)
    cases o with
    | rsp w => exact absurd rfl ((hnew _ ho).2 w)
    | _ => rfl
  | sensor temp rdy =>
    cases h
    exact .inr (.inl ⟨rfl, ⟨[], rfl, by simp⟩, .inr rfl⟩)
  | reset ptr standby ans =>
    cases h
    exact .inl ⟨⟨ptr, standby, ans, rest, ht⟩, rfl, resetBlock_out ..⟩
  | offer | bus | timer =>
    rcases seqUnit (by simp) with ⟨hseq, hout, hcmd⟩ | hmove
    · exact .inr (.inl ⟨hseq, ⟨[], hout, by simp⟩, .inr hcmd⟩)
    · exact .inr (.inr ⟨hturns, hmove⟩)

end Sys2Proof.Machine
end

section
/-! SUPPORT. The invariant (10_state.md rules R31 to R35, 30_encoding.md rule R93, 41_display_scheduler.md rule R155,
70_reset_and_hazards.md rule R210): each part of it holds at reset and every step keeps it, so it holds along every run from a
state that meets it, and such a run never stops. -/

namespace Sys2Proof.Machine

variable {s t : State} {p : Params} {q q' : Seq} {o : Output}

/-! ### SEQ -/

/-- SEQ's part of the invariant, of its registers and the parameters alone. -/
structure SeqInv (p : Params) (q : Seq) : Prop where
  pair : legalPair q.phase q.op = true
  pending : q.pending = pendingOf p q.phase q.op
  pollsLe : ∀ m, p.maxPolls = some m → q.polls ≤ m
  pollsLt : ∀ m, p.maxPolls = some m → PollToCome q.phase → q.polls < m
  rsp : RspLegal q.rsp = true

theorem inv_iff :
    Inv s ↔ s.params.ok = true ∧ SeqInv s.params s.seq ∧ OneEnabled s ∧ NothingOwedStands s := by
  constructor
  · intro h
    exact ⟨h.params, ⟨h.seq.1, h.seq.2, fun m hm => (h.polls m hm).1, fun m hm => (h.polls m hm).2, h.rsp⟩, h.dmux, h.owed⟩
  · rintro ⟨hp, hq, hd, ho⟩
    exact ⟨hp, ⟨hq.pair, hq.pending⟩, fun m hm => ⟨hq.pollsLe m hm, hq.pollsLt m hm⟩, hq.rsp, hd, ho⟩

theorem not_pollToCome_idle : ¬ PollToCome .idle := by simp [PollToCome]

/-- Rule R9: a poll limit is at least 1. -/
theorem zero_lt_maxPolls {m : Nat} (hp : p.ok = true) (hm : p.maxPolls = some m) : 0 < m := by
  simpa [Params.ok, hm, Nat.one_le_iff_ne_zero, Nat.pos_iff_ne_zero] using hp

/-- SEQ in IDLE meets its invariant when its count and response are legal. -/
theorem seqInv_idle (hphase : q.phase = .idle) (hpending : q.pending = none)
    (hle : ∀ m, p.maxPolls = some m → q.polls ≤ m) (hrsp : RspLegal q.rsp = true) : SeqInv p q where
  pair := by rw [hphase]; rfl
  pending := by rw [hpending, hphase]; rfl
  pollsLe := hle
  pollsLt := fun _ _ h => absurd (hphase ▸ h) not_pollToCome_idle
  rsp := hrsp

theorem seqInv_reset : SeqInv p .reset := seqInv_idle rfl rfl (fun _ _ => Nat.zero_le _) rfl

theorem rspLegal_of_ends {r : Rsp} (h : Ends p r) : RspLegal r = true := by
  rcases h with ⟨-, h⟩ | rfl | ⟨rfl, -⟩
  · exact h
  · rfl
  · rfl

theorem lt_of_pollLimitMet_eq_false {m n : Nat} (h : pollLimitMet p n = false) (hm : p.maxPolls = some m) : n < m := by
  simpa [pollLimitMet_of_some hm] using h

/-- Every move of SEQ keeps its invariant. -/
theorem SeqMove.keeps_seqInv (h : SeqMove p q q' o) (hp : p.ok = true) (hq : SeqInv p q) : SeqInv p q' := by
  cases h with
  | accept op ph r hidle hpair hr =>
    exact ⟨hpair, hr.symm, fun _ _ => Nat.zero_le _, fun _ hm _ => zero_lt_maxPolls hp hm, hq.rsp⟩
  | reject op hidle => exact seqInv_idle rfl rfl (fun _ _ => Nat.zero_le _) rfl
  | proceed ph r hbusy hpair hr hpoll =>
    exact ⟨hpair hq.pair, hr.symm, hq.pollsLe, fun m hm h => hq.pollsLt m hm (hpoll h), hq.rsp⟩
  | pollAgain hph hop hlimit =>
    have hlt (m) (hm : p.maxPolls = some m) : q.polls + 1 < m := lt_of_pollLimitMet_eq_false hlimit hm
    exact ⟨by rw [hop]; rfl, rfl, fun m hm => (hlt m hm).le, fun m hm _ => hlt m hm, hq.rsp⟩
  | pollLimit hph hlimit =>
    exact seqInv_idle rfl rfl (fun m hm => hq.pollsLt m hm (.inr (.inr (.inl hph)))) rfl
  | complete r hbusy hr => exact seqInv_idle rfl rfl hq.pollsLe (rspLegal_of_ends hr)

theorem seqInv_step (hp : s.params.ok = true) (hq : SeqInv s.params s.seq) (h : step s = .next t) :
    SeqInv s.params t.seq := by
  rcases step_seq h with ⟨-, hseq, -⟩ | ⟨hseq, -⟩ | ⟨-, o, hmove, -⟩
  · exact hseq ▸ seqInv_reset
  · exact hseq ▸ hq
  · exact hmove.keeps_seqInv hp hq

/-! ### DMUX -/

/-- Rule R154: a refresh enables exactly one position. -/
theorem oneEnabled_refreshed {pattern : Byte} {d : Dmux} (h : t.dmux = refreshed pattern d) : OneEnabled t := by
  simp [OneEnabled, h, refreshed]

theorem oneEnabled_step (hd : OneEnabled s) (h : step s = .next t) : OneEnabled t := by
  rcases step_dmux h with ⟨-, -, -, -, -, hreset, -⟩ | ⟨hsame, -⟩ | ⟨io, ts, ht⟩
  · simp [OneEnabled, hreset, Dmux.reset]
  · simpa [OneEnabled, hsame] using hd
  · obtain ⟨-, -, -, -, -, -, -, -, -, -, hsame | ⟨w, ws, i, -, -, ⟨-, hcount⟩ | ⟨-, pattern, hshown⟩⟩⟩ := step_event_frame ht h
    · simpa [OneEnabled, hsame] using hd
    · simpa [OneEnabled, hcount] using hd
    · exact oneEnabled_refreshed hshown

/-! ### Owed answers -/

theorem busOwed_dropBusOwed (s : State) : (dropBusOwed s).busOwed = 0 ∨ (dropBusOwed s).busPort = [] := by
  simp only [dropBusOwed_busOwed, dropBusOwed_busPort, List.drop_eq_nil_iff]
  omega

theorem timerOwed_dropTimerOwed (s : State) : (dropTimerOwed s).timerOwed = 0 ∨ (dropTimerOwed s).timerPort = 0 := by
  simp only [dropTimerOwed_timerOwed, dropTimerOwed_timerPort]
  omega

theorem nothingOwedStands_arrive (a : Arrival) (s : State) : NothingOwedStands (arrive a s) :=
  ⟨busOwed_dropBusOwed _, timerOwed_dropTimerOwed _⟩

theorem nothingOwedStands_replenish (hs : NothingOwedStands s) : NothingOwedStands (replenish s) := by
  cases h : s.supply with
  | ended => rwa [replenish_of_ended h]
  | repeating round =>
    rw [replenish_of_repeating h]
    exact nothingOwedStands_arrive _ _
  | free next =>
    rw [replenish_of_free h]
    exact nothingOwedStands_arrive _ _

theorem nothingOwedStands_forget (hs : NothingOwedStands s) : NothingOwedStands (forget s) := by
  cases h : s.seq.pending with
  | none => rwa [forget_of_none h]
  | some r =>
    cases r with
    | delay n =>
      rw [forget_of_delay h]
      exact ⟨hs.1, timerOwed_dropTimerOwed _⟩
    | busTx _ _ _ | busRx _ _ _ =>
      rw [forget_of_bus h (by simp)]
      exact ⟨busOwed_dropBusOwed _, hs.2⟩

theorem nothingOwedStands_resetBlock (ptr : Byte) (standby answered : Bool) (hs : NothingOwedStands s) :
    NothingOwedStands (resetBlock ptr standby answered s) := by
  cases answered with
  | false => exact hs
  | true => exact nothingOwedStands_forget hs

/-- Nothing comes to stand in a port that answers leave and none joins. -/
theorem nothingOwedStands_mono (hbus : t.busPort <:+ s.busPort) (htimer : t.timerPort ≤ s.timerPort)
    (howed : t.busOwed = s.busOwed ∧ t.timerOwed = s.timerOwed) (hs : NothingOwedStands s) : NothingOwedStands t := by
  obtain ⟨hb, ht⟩ := hs
  rw [← howed.1] at hb
  rw [← howed.2] at ht
  refine ⟨hb.imp_right fun hnil => ?_, ht.imp_right fun hzero => ?_⟩
  · exact List.suffix_nil.1 (hnil ▸ hbus)
  · omega

/-- A turn of SEQ takes at most the first answer from either port. -/
theorem seqUnit_answers {tn : Turn} (hs : tn = .offer ∨ tn = .bus ∨ tn = .timer) (h : turnStep tn s = .next t) :
    t.busPort <:+ s.busPort ∧ t.timerPort ≤ s.timerPort := by
  rcases hs with rfl | rfl | rfl
  · rcases offerTurn_cases h with ⟨-, rfl⟩ | ⟨w, ws, -, h⟩
    · exact ⟨List.suffix_rfl, le_rfl⟩
    · obtain ⟨-, -, -, -, hbus, htimer, -⟩ := exec_command_frame (decodeCmd_isCommand w) h
      exact ⟨hbus ▸ List.suffix_rfl, htimer.le⟩
  · rcases busTurn_cases h with rfl | ⟨o, bs, a, u, hport, -, hu, rfl⟩
    · exact ⟨List.suffix_rfl, le_rfl⟩
    · obtain ⟨-, -, -, -, -, -, htimer, -⟩ := seqBusAnswer_frame hu
      exact ⟨hport ▸ List.suffix_cons o bs, htimer.le⟩
  · rcases timerTurn_cases h with rfl | ⟨n, u, hport, hu, rfl⟩
    · exact ⟨List.suffix_rfl, le_rfl⟩
    · obtain ⟨-, -, -, -, -, hbus, -⟩ := seqDelayDone_frame hu
      exact ⟨hbus ▸ List.suffix_rfl, by show n ≤ s.timerPort; omega⟩

theorem nothingOwedStands_step (hs : NothingOwedStands s) (h : step s = .next t) : NothingOwedStands t := by
  have h0 := h
  rcases step_cases h with ⟨-, h⟩ | ⟨tn, rest, ht, h⟩
  · cases h
    exact nothingOwedStands_replenish hs
  cases tn with
  | reset ptr standby answered =>
    cases h
    exact nothingOwedStands_resetBlock (s := { s with turns := rest }) ptr standby answered hs
  | sensor temp rdy =>
    cases h
    exact hs
  | event io =>
    obtain ⟨-, -, -, -, hbus, htimer, -⟩ := step_event_frame ht h0
    exact nothingOwedStands_mono (hbus ▸ List.suffix_rfl) htimer.le (step_owed ht rfl h0) hs
  | offer | bus | timer =>
    obtain ⟨hbus, htimer⟩ := seqUnit_answers (s := { s with turns := rest }) (by simp) h
    exact nothingOwedStands_mono (s := s) hbus htimer (step_owed ht rfl h0) hs

/-! ### The whole invariant -/

theorem inv_step (hs : Inv s) (h : step s = .next t) : Inv t := by
  obtain ⟨hp, hq, hd, ho⟩ := inv_iff.1 hs
  rw [inv_iff, step_params h]
  exact ⟨hp, seqInv_step hp hq h, oneEnabled_step hd h, nothingOwedStands_step ho h⟩

theorem inv_reset : Inv State.reset :=
  inv_iff.2 ⟨rfl, seqInv_reset, rfl, .inl rfl, .inl rfl⟩

/-- Under the invariant SEQ's phase is one that rule R31 writes. -/
theorem phase_of_inv (hs : Inv s) : s.seq.phase ≠ .code6 ∧ s.seq.phase ≠ .code7 := by
  have hpair := hs.seq.1
  constructor <;> intro hp <;> simp [hp, legalPair] at hpair

theorem runs_of_inv (n : Nat) (hs : Inv s) : ∃ t, Runs n s t ∧ Inv t := by
  induction n generalizing s with
  | zero => exact ⟨s, runs_zero.2 rfl, hs⟩
  | succ n ih =>
    obtain ⟨h6, h7⟩ := phase_of_inv hs
    obtain ⟨u, hu⟩ := step_total h6 h7
    obtain ⟨t, hrun, ht⟩ := ih (inv_step hs hu)
    exact ⟨t, runs_cons hu hrun, ht⟩

/-- Settles O7: both units are in their reset states and nothing is owed. -/
theorem invariantAtReset : Obligations.InvariantAtReset := inv_reset

/-- Settles O8: each part of the invariant is kept, SEQ's by a case analysis of its moves. -/
theorem stepKeepsInvariant : Obligations.StepKeepsInvariant := fun _ _ => inv_step

/-- Settles O9, by induction on the number of steps: under the invariant SEQ's phase is legal, so the step answers a next state,
and it meets the invariant again. -/
theorem noStopUnderInvariant : Obligations.NoStopUnderInvariant := fun _ hs n => runs_of_inv n hs

/-! ### The parameters -/

theorem runs_params {n : Nat} (h : Runs n s t) : t.params = s.params := by
  induction n generalizing s with
  | zero => rw [runs_zero.1 h]
  | succ n ih =>
    obtain ⟨u, hu, h⟩ := (runs_succ n).1 h
    exact (ih h).trans (step_params hu)

/-- Settles O14, by induction on the number of steps. -/
theorem parametersNeverChange : Obligations.ParametersNeverChange := fun _ _ _ => runs_params

end Sys2Proof.Machine
end

section
/-! SUPPORT. What a step does with the word, the reset or the arrival that its turn presents: an offer is taken in IDLE, held in any
other phase and a fault in none (40_sensor_sequencer.md rules R110, R111, R116); an event word runs its event, or passes; a reset
and the agents' own step in full. -/

namespace Sys2Proof.Machine

variable {s t : State}

/-! ### Offers -/

/-- The command with code `w` is an offer of the op with that code, whose first action keeps the op, the count and the port. -/
theorem exec_eq_offered {i : Instr} {w : CmdWord} (h : encode i = .cmd w) (s : State) :
    ∃ op first, op.code = w ∧ exec i s = offered op first s ∧
      ∀ u, (first u).seq.op = u.seq.op ∧ (first u).seq.polls = u.seq.polls ∧ (first u).cmdPort = u.cmdPort := by
  cases i <;> cases h <;> exact ⟨_, _, rfl, rfl, fun _ => ⟨rfl, rfl, rfl⟩⟩

/-- Rule R111: in IDLE a command word on offer is taken, its code latched and the poll count cleared. -/
theorem step_offer_idle {w : CmdWord} {ws : List CmdWord} {ts : List Turn} (ht : s.turns = .offer :: ts)
    (hc : s.cmdPort = w :: ws) (hp : s.seq.phase = .idle) :
    ∃ t, step s = .next t ∧ t.seq.op.code = w ∧ t.seq.polls = 0 ∧ t.cmdPort = ws := by
  obtain ⟨op, first, hcode, hexec, hfirst⟩ := exec_eq_offered (encode_decodeCmd w) { s with turns := ts }
  obtain ⟨hop, hpolls, hcmd⟩ := hfirst (accept op { s with turns := ts })
  refine ⟨_, (step_offer ht hc).trans (hexec.trans (offered_idle op first hp)), ?_, hpolls, ?_⟩
  · rw [hop]
    exact hcode
  · rw [hcmd]
    show s.cmdPort.tail = ws
    rw [hc, List.tail_cons]

/-- Rules R110, R116: in any other legal phase it stays on offer. -/
theorem step_offer_busy {w : CmdWord} {ws : List CmdWord} {ts : List Turn} (ht : s.turns = .offer :: ts)
    (hc : s.cmdPort = w :: ws) (hp : s.seq.phase ≠ .idle) (h6 : s.seq.phase ≠ .code6) (h7 : s.seq.phase ≠ .code7) :
    step s = .next { s with turns := ts } := by
  obtain ⟨op, first, -, hexec, -⟩ := exec_eq_offered (encode_decodeCmd w) { s with turns := ts }
  exact (step_offer ht hc).trans (hexec.trans (offered_held op first hp h6 h7))

/-- Settles O18: IDLE and the five busy phases are the cases of an offer that answers a next state. -/
theorem offerIsTakenOrHeld : Obligations.OfferIsTakenOrHeld := fun _ _ _ _ ht hc =>
  ⟨step_offer_idle ht hc, step_offer_busy ht hc⟩

/-- Rule R186 (a): in a phase that is none every command faults. -/
theorem exec_command_illegal {i : Instr} (hi : i.isCommand = true) (hp : s.seq.phase = .code6 ∨ s.seq.phase = .code7) :
    exec i s = .fault (.phaseFault s.seq.phase.code) := by
  cases i <;> simp only [Instr.isCommand, Bool.false_eq_true] at hi
  all_goals exact offered_illegal _ _ hp

theorem offerTurn_illegal (hp : s.seq.phase = .code6 ∨ s.seq.phase = .code7) :
    offerTurn s = .fault (.phaseFault s.seq.phase.code) := by
  cases hc : s.cmdPort with
  | nil =>
    simp only [offerTurn, fetchCmd, hc, List.head?_nil, Option.map_none]
    exact seqTurn_illegal _ hp
  | cons w ws => rw [offerTurn_of hc, exec_command_illegal (decodeCmd_isCommand w) hp]

/-- Settles O19: every command is an offer, which faults there; and every turn of SEQ faults before it looks at an answer. -/
theorem illegalPhaseFaults : Obligations.IllegalPhaseFaults := by
  intro s hp
  refine ⟨fun i hi => exec_command_illegal hi hp, fun ts hts => ?_⟩
  rcases hts with ht | ht | ht <;> rw [step_of_turn ht]
  · exact offerTurn_illegal (s := { s with turns := ts }) hp
  · exact seqTurn_illegal (s := { s with turns := ts }) _ hp
  · exact seqTurn_illegal (s := { s with turns := ts }) _ hp

/-- Settles O15: in IDLE an offer is taken with its first action, here a transmit of the command's frame. -/
theorem transmittingCommandsAccepted : Obligations.TransmittingCommandsAccepted := fun _ hp =>
  ⟨offered_idle _ _ hp, offered_idle _ _ hp, offered_idle _ _ hp, offered_idle _ _ hp⟩

/-- Settles O16: the first action is a receive of one byte. -/
theorem receivingCommandsAccepted : Obligations.ReceivingCommandsAccepted := fun _ hp =>
  ⟨offered_idle _ _ hp, offered_idle _ _ hp⟩

/-- Rules R93, R180: the response word of ILLEGAL_CMD. -/
theorem illegalCmd_word : Rsp.word ⟨.illegalCmd, false, 0x00⟩ = 0x004 := by decide

/-- Settles O17: the first action of a reserved code is its completion. -/
theorem reservedCodesCompleteIllegal : Obligations.ReservedCodesCompleteIllegal := fun _ hp =>
  ⟨offered_idle _ _ hp, offered_idle _ _ hp, illegalCmd_word⟩

/-! ### Event words -/

theorem step_event {w : EvtWord} {ws : List EvtWord} {io : Bool} {ts : List Turn} {i : Instr}
    (ht : s.turns = .event io :: ts) (hw : s.evtPort = w :: ws) (hd : decodeEvt w = .ok i) :
    step s = exec i { s with turns := ts, ioFail := io } :=
  (step_of_turn ht).trans (eventTurn_of (s := { s with turns := ts, ioFail := io }) hw hd)

theorem step_noEvent {w : EvtWord} {ws : List EvtWord} {io : Bool} {ts : List Turn} {r : Reject}
    (ht : s.turns = .event io :: ts) (hw : s.evtPort = w :: ws) (hd : decodeEvt w = .error r) :
    step s = .next { s with turns := ts, evtPort := ws, ioFail := io } := by
  rw [step_of_turn ht]
  show eventTurn { s with turns := ts, ioFail := io } = _
  simp only [eventTurn, hw, hd, takeEvent, List.tail_cons]

/-- DMUX takes whatever event word is presented to it. -/
theorem step_event_total {io : Bool} {ts : List Turn} (ht : s.turns = .event io :: ts) :
    ∃ t, step s = .next t ∧ t.evtPort = s.evtPort.tail := by
  obtain ⟨d, outs, h, -⟩ := eventTurn_spec { s with turns := ts, ioFail := io }
  exact ⟨_, (step_of_turn ht).trans h, rfl⟩

/-- Settles O12: a word of kind 00 decodes to no event, and passes. -/
theorem kindZeroIsNoEvent : Obligations.KindZeroIsNoEvent := fun _ w _ _ _ ht hw hk =>
  step_noEvent ht hw ((decodeEvt_noEvent_iff w).2 hk)

/-- A table row whose bytes decode holds a port word that decodes to the same instruction. -/
theorem wordOfBytes_of_decodeTableWord {nbits w : Nat} {i : Instr} (h : decodeTableWord nbits w = some i) :
    ∃ word, wordOfBytes (tableBytes nbits w) = .ok word ∧ decode word = .ok i := by
  unfold decodeTableWord decodeBytes at h
  cases hw : wordOfBytes (tableBytes nbits w) with
  | error r => simp [hw] at h
  | ok word =>
    cases hd : decode word with
    | error r => simp [hw, hd] at h
    | ok j =>
      simp only [hw, hd, Option.some.injEq] at h
      exact ⟨word, rfl, h ▸ hd⟩

/-- Settles O10: the turn looks at the head of its port, and `presentWord` puts the table's word and its turn there. -/
theorem stepRunsDecodedInstruction : Obligations.StepRunsDecodedInstruction := by
  refine ⟨fun s w ws ts i ht hc hd => ?_, fun s w ws io ts i ht hw hd => step_event ht hw hd, fun s nbits w i h => ?_⟩
  · cases hd
    exact step_offer ht hc
  · obtain ⟨word, hword, hd⟩ := wordOfBytes_of_decodeTableWord h
    refine ⟨word, hword, hd, ?_⟩
    rw [State.withFetchWord, hword]
    cases word with
    | cmd c =>
      cases hd
      exact step_offer (s := presentWord (.cmd c) s) rfl rfl
    | evt e => exact step_event (s := presentWord (.evt e) s) rfl rfl hd

/-! ### Reset -/

/-- Settles O6: the registers are written out as rules R44 and R45 list them. -/
theorem resetRegisters : Obligations.ResetRegisters := ⟨rfl, rfl, rfl, rfl⟩

/-- Settles O13: the block is reset on what is left when the request in flight is forgotten, in the three cases of what was
pending. -/
theorem resetTurnResetsBothUnits : Obligations.ResetTurnResetsBothUnits := by
  intro s ptr standby answered ts ht
  have hstep : step s = .next (resetBlock ptr standby answered { s with turns := ts }) := step_of_turn ht
  refine ⟨fun h => ?_, fun n hq ha => ?_, fun q hq hn ha => ?_⟩
  · rw [hstep]
    rcases h with hnone | rfl
    · have hforget : forget { s with turns := ts } = { s with turns := ts } := forget_of_none hnone
      simp only [resetBlock, hforget, ite_self]
    · rfl
  · subst ha
    rw [hstep, resetBlock, if_pos rfl, forget_of_delay (s := { s with turns := ts }) hq]
    rfl
  · subst ha
    rw [hstep, resetBlock, if_pos rfl, forget_of_bus (s := { s with turns := ts }) hq hn]
    rfl

/-! ### The agents' own step -/

theorem step_of_ended (ht : s.turns = []) (hs : s.supply = .ended) : step s = .next s := by
  rw [step_of_noTurn ht, replenish_of_ended hs]

/-- Settles O11: with nothing scheduled the step is the agents' own, and they have nothing to present. -/
theorem nothingScheduledWaits : Obligations.NothingScheduledWaits :=
  ⟨step_of_ended rfl rfl, fun _ => step_of_ended⟩

/-- Settles O57: the step is the arrival that the supply gives, with its turns as the whole schedule. -/
theorem supplyOnlyPresents : Obligations.SupplyOnlyPresents := by
  intro s ht
  refine ⟨fun a hs => ?_, fun k hs => ?_⟩
  · rw [step_of_noTurn ht, replenish_of_repeating hs]
    simp only [arrive, ht, List.nil_append]
    rfl
  · rw [step_of_noTurn ht, replenish_of_free hs]
    simp only [arrive, ht, List.nil_append]
    rfl

end Sys2Proof.Machine
end

section
/-! SUPPORT. SEQ's responses and waits. A move of SEQ ends its command with a response or asks for more without one
(40_sensor_sequencer.md rule R115), so responses and open commands balance; and an answer that the step table does not list, or that
BUS does not give, is waited out (rules R114, R116). -/

namespace Sys2Proof.Machine

variable {s t u : State} {p : Params} {q q' : Seq} {o : Output}

/-! ### A move ends the command, or asks for more -/

theorem phase_of_pendingOf {ph : Phase} {op : Op} {r : Request} (h : pendingOf p ph op = some r) : ph ≠ .idle := by
  rintro rfl
  simp [pendingOf] at h

theorem SeqMove.ends_or_asks (h : SeqMove p q q' o) :
    (o = .rsp q'.rsp.word ∧ q'.phase = .idle ∧ q'.pending = none) ∨
      ((∃ r, o = .request r) ∧ q'.rsp = q.rsp ∧ q'.phase ≠ .idle) := by
  cases h with
  | accept op ph r hidle hpair hr => exact .inr ⟨⟨r, rfl⟩, rfl, phase_of_pendingOf hr⟩
  | proceed ph r hbusy hpair hr hpoll => exact .inr ⟨⟨r, rfl⟩, rfl, phase_of_pendingOf hr⟩
  | pollAgain hph hop hlimit => exact .inr ⟨⟨_, rfl⟩, rfl, by simp⟩
  | reject | pollLimit | complete => exact .inl ⟨rfl, rfl, rfl⟩

/-- 40_sensor_sequencer.md rule R115: a response word comes from a completion. -/
theorem step_emits_rsp {w : RspWord} (h : step s = .next t) (hout : t.out = .rsp w :: s.out) :
    t.seq.phase = .idle ∧ t.seq.pending = none ∧ w = t.seq.rsp.word := by
  rcases step_seq h with ⟨-, -, hsame⟩ | ⟨-, ⟨new, hnew, hno⟩, -⟩ | ⟨-, o, hmove, ho, -⟩
  · exact absurd (hsame.symm.trans hout) List.ne_cons_self
  · have hw : new = [.rsp w] := List.append_cancel_right (hnew.symm.trans hout)
    exact absurd (hno (.rsp w) (by simp [hw])) (by simp)
  · have hw : o = .rsp w := List.head_eq_of_cons_eq (ho.symm.trans hout)
    rcases hmove.ends_or_asks with ⟨heq, hidle, hnone⟩ | ⟨⟨r, hr⟩, -⟩
    · exact ⟨hidle, hnone, Output.rsp.inj (hw.symm.trans heq)⟩
    · cases hw.symm.trans hr

/-- Settles O24: outside reset the response register is written only by a move that ends the command. -/
theorem responsesComeFromCompletion : Obligations.ResponsesComeFromCompletion := by
  intro s t h
  refine ⟨fun w => step_emits_rsp h, fun hne => ?_⟩
  rcases step_seq h with ⟨hreset, -⟩ | ⟨hsame, -⟩ | ⟨-, o, hmove, hout, -⟩
  · exact .inr hreset
  · exact absurd (by rw [hsame]) hne
  · rcases hmove.ends_or_asks with ⟨ho, -⟩ | ⟨-, hsame, -⟩
    · exact .inl (ho ▸ hout)
    · exact absurd hsame hne

/-- The two optional errors, where a move writes them. -/
theorem SeqMove.optional_errors (h : SeqMove p q q' o) :
    (q'.rsp.status = .timeout → q.rsp.status = .timeout ∨ (p.timeoutDistinct = true ∧ p.busTimeout ≠ .infinite)) ∧
      (q'.rsp.status = .pollLimit → q.rsp.status = .pollLimit ∨ ∃ m, p.maxPolls = some m) := by
  cases h with
  | accept | proceed | pollAgain => exact ⟨.inl, .inl⟩
  | reject => exact ⟨nofun, nofun⟩
  | pollLimit hph hlimit =>
    refine ⟨nofun, fun _ => .inr ?_⟩
    cases hm : p.maxPolls with
    | none => simp [pollLimitMet_of_none hm] at hlimit
    | some m => exact ⟨m, rfl⟩
  | complete r hbusy hr =>
    rcases hr with ⟨hok, -⟩ | rfl | ⟨rfl, hto⟩
    · simp [hok]
    · exact ⟨nofun, nofun⟩
    · exact ⟨fun _ => .inr hto, nofun⟩

/-- Settles O23: reset writes OK, and of SEQ's moves only one on BusTimeout writes TIMEOUT and only one at the poll limit
POLL_LIMIT. -/
theorem optionalErrorsNeedTheirParameter : Obligations.OptionalErrorsNeedTheirParameter := by
  intro s t h
  rcases step_seq h with ⟨-, hseq, -⟩ | ⟨hseq, -⟩ | ⟨-, o, hmove, -⟩
  · rw [hseq]
    exact ⟨nofun, nofun⟩
  · rw [hseq]
    exact ⟨.inl, .inl⟩
  · exact hmove.optional_errors

/-- Settles O25: a response leaves SEQ in IDLE, where any offer is taken; and DMUX takes any event word in any state. -/
theorem noErrorIsFatal : Obligations.NoErrorIsFatal := by
  intro s t h
  refine ⟨fun w hout => ?_, fun e es io ts => ?_⟩
  · obtain ⟨hidle, -⟩ := step_emits_rsp h hout
    refine ⟨hidle, fun c cs ts => ?_⟩
    obtain ⟨u, hu, hcode, -, hport⟩ :=
      step_offer_idle (s := { t with cmdPort := c :: cs, turns := .offer :: ts }) rfl rfl hidle
    exact ⟨u, hu, hcode, hport⟩
  · exact step_event_total (s := { t with evtPort := e :: es, turns := .event io :: ts }) rfl

/-! ### What a run finds in its turns, and what the supply still brings -/

theorem inputs_succ (h : step s = .next u) (n : Nat) :
    inputs (n + 1) s = (s.turns.head?.map (inputOf s)).toList ++ inputs n u := by
  simp only [inputs, h]

@[simp] theorem isReset_inputOf (s : State) (tn : Turn) : (inputOf s tn).isReset = tn.isReset := by
  cases tn <;> rfl

@[simp] theorem isEvent_inputOf (s : State) (tn : Turn) : (inputOf s tn).isEvent = tn.isEvent := by
  cases tn <;> rfl

/-- A run without resets does not begin with one, and goes on without. -/
theorem noReset_of_inputs {n : Nat} (h : step s = .next u) (hno : ∀ x ∈ inputs (n + 1) s, x.isReset = false) :
    (∀ tn ts, s.turns = tn :: ts → tn.isReset = false) ∧ ∀ x ∈ inputs n u, x.isReset = false := by
  rw [inputs_succ h] at hno
  refine ⟨fun tn ts ht => ?_, fun x hx => hno x (List.mem_append_right _ hx)⟩
  rw [← isReset_inputOf s]
  exact hno _ (List.mem_append_left _ (by simp [ht]))

/-- The agents' own step, when every arrival to come meets `P`: a wait, or such an arrival with such a supply behind it. -/
theorem replenish_cases {P : Arrival → Prop} (h : s.supply.All P) :
    replenish s = s ∨
      ∃ a supply, P a ∧ supply.All P ∧ replenish s = arrive a { s with supply := supply } := by
  cases hs : s.supply with
  | ended => exact .inl (replenish_of_ended hs)
  | repeating round =>
    rw [hs] at h
    refine .inr ⟨round, .repeating round, h, h, ?_⟩
    rw [replenish_of_repeating hs, ← hs]
  | free next =>
    rw [hs] at h
    exact .inr ⟨_, .free (next + 1), h next le_rfl, fun k hk => h k (by omega), replenish_of_free hs⟩

theorem supplyAll_step {P : Arrival → Prop} (h : s.supply.All P) (hs : step s = .next t) : t.supply.All P := by
  rcases step_cases hs with ⟨-, heq⟩ | ⟨tn, rest, ht, -⟩
  · cases heq
    rcases replenish_cases h with hwait | ⟨a, supply, -, hall, harrive⟩
    · rwa [hwait]
    · rwa [harrive]
  · rwa [(step_turns ht hs).2]

/-! ### Open commands and responses -/

theorem responses_of_silent {new : List Output} (hout : t.out = new ++ s.out) (hno : ∀ o ∈ new, o.isRsp = false) :
    responses t = responses s := by
  rw [responses, hout, List.countP_append, List.countP_eq_zero.2 (by simpa using hno), Nat.zero_add, responses]

theorem openCommands_congr (hseq : t.seq = s.seq) (hcmd : t.cmdPort = s.cmdPort) : openCommands t = openCommands s := by
  rw [openCommands, hseq, hcmd, openCommands]

/-- A step on a turn that is no reset answers a command exactly when it closes one. -/
theorem openCommands_add_responses_step (h : step s = .next t) (hturns : s.turns ≠ [])
    (hno : ∀ tn ts, s.turns = tn :: ts → tn.isReset = false) :
    openCommands t + responses t = openCommands s + responses s := by
  rcases step_seq h with ⟨⟨ptr, standby, ans, ts, ht⟩, -⟩ | ⟨hseq, ⟨new, hout, hsilent⟩, hcmd⟩ | ⟨-, o, hmove, hout, hopen⟩
  · exact absurd (hno _ _ ht) (by simp)
  · have hcmd : t.cmdPort = s.cmdPort := hcmd.resolve_left fun hnil => hturns hnil.1
    rw [openCommands_congr hseq hcmd, responses_of_silent hout hsilent]
  · have hcount : responses t = responses s + if o.isRsp then 1 else 0 := by
      rw [responses, hout, List.countP_cons, responses]
    rcases hmove.ends_or_asks with ⟨rfl, hidle, -⟩ | ⟨⟨r, rfl⟩, -, hbusy⟩
    · rw [openCommands_of_idle hidle, hcount, hopen, isRsp_rsp, if_pos rfl]
      omega
    · rw [openCommands_of_busy hbusy, hcount, hopen, isRsp_request, if_neg (by decide)]
      rfl

/-- An arrival adds its commands behind the port. -/
theorem replenish_cmdPort (s : State) : ∃ more, (replenish s).cmdPort = s.cmdPort ++ more := by
  rcases replenish_cases (s := s) (P := fun _ => True) (by cases s.supply <;> simp [Supply.All]) with h | ⟨a, _, -, -, h⟩
  · exact ⟨[], by rw [h, List.append_nil]⟩
  · exact ⟨a.cmds, by rw [h]; rfl⟩

theorem responses_replenish (s : State) : responses (replenish s) = responses s := by
  rw [responses, replenish_out, responses]

/-- An arrival of no commands keeps the open commands. -/
theorem openCommands_replenish (h : s.supply.All fun a => a.cmds = []) : openCommands (replenish s) = openCommands s := by
  refine openCommands_congr (replenish_seq s) ?_
  rcases replenish_cases h with hwait | ⟨a, supply, hcmds, -, harrive⟩
  · rw [hwait]
  · rw [harrive, arrive_cmdPort, hcmds, List.append_nil]

theorem openCommands_add_responses_runs {n : Nat} (h : Runs n s t) (hs : s.supply.All fun a => a.cmds = [])
    (hno : ∀ x ∈ inputs n s, x.isReset = false) : openCommands t + responses t = openCommands s + responses s := by
  induction n generalizing s with
  | zero => rw [runs_zero.1 h]
  | succ n ih =>
    obtain ⟨u, hu, h⟩ := (runs_succ n).1 h
    obtain ⟨hfirst, hrest⟩ := noReset_of_inputs hu hno
    rw [ih h (supplyAll_step hs hu) hrest]
    by_cases ht : s.turns = []
    · rw [step_of_noTurn ht] at hu
      cases hu
      rw [openCommands_replenish hs, responses_replenish]
    · exact openCommands_add_responses_step hu ht hfirst

/-- 70_reset_and_hazards.md rule R216: SEQ is quiet when no command is open. -/
theorem quiet_iff (s : State) : Quiet s ↔ openCommands s = 0 := by
  by_cases hp : s.seq.phase = .idle
  · rw [openCommands_of_idle hp, List.length_eq_zero_iff]
    exact and_iff_right hp
  · rw [openCommands_of_busy hp]
    exact iff_of_false (fun h => hp h.1) (Nat.succ_ne_zero _)

/-- Settles O60: the sum is kept by every turn that is no reset and by an arrival of no commands, and so by the run, by induction on
its length. -/
theorem commandsAreAnsweredOnce : Obligations.CommandsAreAnsweredOnce := by
  refine ⟨fun s t h => ⟨fun tn ts ht hno => ?_, fun ht => ?_⟩, fun n s t h hs hno => ?_, quiet_iff⟩
  · refine openCommands_add_responses_step h (by simp [ht]) fun tn' ts' ht' => ?_
    cases ht.symm.trans ht'
    exact hno
  · rw [step_of_noTurn ht] at h
    cases h
    obtain ⟨more, hmore⟩ := replenish_cmdPort s
    refine ⟨more, hmore, replenish_seq s, ?_, responses_replenish s⟩
    rw [openCommands, hmore, replenish_seq, List.length_append, openCommands]
    omega
  · have hsum := openCommands_add_responses_runs h hs hno
    refine ⟨hsum, ?_⟩
    rw [quiet_iff]
    omega

/-! ### Answers that are not taken -/

theorem busTurn_waits (h6 : s.seq.phase ≠ .code6) (h7 : s.seq.phase ≠ .code7)
    (h : ∀ o bs a, s.busPort = o :: bs → busAnswer s.params s.sensor o = some a → seqBusAnswer a s = none) :
    busTurn s = .next s := by
  rw [busTurn, seqTurn_legal _ h6 h7]
  cases hb : s.busPort with
  | nil => rfl
  | cons o bs =>
    cases ha : busAnswer s.params s.sensor o with
    | none => simp only [ha, Option.bind_none]
    | some a => simp only [ha, Option.bind_some, h o bs a hb ha]

theorem timerTurn_waits (h6 : s.seq.phase ≠ .code6) (h7 : s.seq.phase ≠ .code7)
    (h : s.timerPort = 0 ∨ seqDelayDone s = none) : timerTurn s = .next s := by
  rw [timerTurn, seqTurn_legal _ h6 h7]
  cases hn : s.timerPort with
  | zero => rfl
  | succ n => simp only [h.resolve_left (by simp [hn])]

theorem step_bus_waits {ts : List Turn} (ht : s.turns = .bus :: ts) (h6 : s.seq.phase ≠ .code6)
    (h7 : s.seq.phase ≠ .code7)
    (h : ∀ o bs a, s.busPort = o :: bs → busAnswer s.params s.sensor o = some a →
      seqBusAnswer a { s with turns := ts } = none) : step s = .next { s with turns := ts } :=
  (step_of_turn ht).trans (busTurn_waits (s := { s with turns := ts }) h6 h7 h)

theorem step_timer_waits {ts : List Turn} (ht : s.turns = .timer :: ts) (h6 : s.seq.phase ≠ .code6)
    (h7 : s.seq.phase ≠ .code7) (h : s.timerPort = 0 ∨ seqDelayDone { s with turns := ts } = none) :
    step s = .next { s with turns := ts } :=
  (step_of_turn ht).trans (timerTurn_waits (s := { s with turns := ts }) h6 h7 h)

/-- Settles O20: the answer is not one that SEQ takes in its phase, is not an answer, or is not there. -/
theorem unlistedAnswersWait : Obligations.UnlistedAnswersWait := by
  intro s ts
  refine ⟨fun ht hp => ?_, fun ht hp hb => ?_, fun ht hp hb => ?_, fun ht hp => ?_, fun ht hb h6 h7 => ?_,
    fun ht hn h6 h7 => ?_⟩
  · rcases hp with hp | hp | hp <;>
      exact step_bus_waits ht (by simp [hp]) (by simp [hp]) fun o bs a _ _ => by simp only [seqBusAnswer, hp]
  · refine step_bus_waits ht (by simp [hp]) (by simp [hp]) fun o bs a hport ha => ?_
    obtain ⟨b, rfl⟩ : ∃ b, a = .rxOk b := by
      rcases hb with ⟨b, bs', hb⟩ | ⟨b, bs', hb⟩ <;> cases hb.symm.trans hport <;> cases ha <;> exact ⟨_, rfl⟩
    simp only [seqBusAnswer, hp]
  · obtain ⟨bs', hb⟩ := hb
    rcases hp with hp | hp <;>
    · refine step_bus_waits ht (by simp [hp]) (by simp [hp]) fun o bs a hport ha => ?_
      cases hb.symm.trans hport
      cases ha
      simp only [seqBusAnswer, hp]
  · rcases hp with hp | hp | hp | hp <;>
      exact step_timer_waits ht (by simp [hp]) (by simp [hp]) (.inr (by simp only [seqDelayDone, hp]))
  · exact step_bus_waits ht h6 h7 fun o bs a hport => by cases hb.symm.trans hport
  · exact step_timer_waits ht h6 h7 (.inl hn)

/-- Rule R114: what BUS answers to an expired transaction under a finite bound. -/
theorem busAnswer_expired (hp : p.busTimeout ≠ .infinite) (z : Sensor) (ptr : Byte) (standby : Bool) :
    busAnswer p z (.expired ptr standby) = some (if p.timeoutDistinct then .busTimeout else .busFail) := by
  simp only [busAnswer, expiredAnswer]
  split
  · contradiction
  all_goals rfl

/-- Settles O22: under INFINITE BUS gives no answer, and under a finite bound the one that ends the command. -/
theorem expiredTransactionAnswer : Obligations.ExpiredTransactionAnswer := by
  intro s ts ptr standby bs hp ht hb
  refine ⟨fun hinf => ?_, fun hfin => ?_⟩
  · obtain ⟨h6, h7⟩ : s.seq.phase ≠ .code6 ∧ s.seq.phase ≠ .code7 := by rcases hp with hp | hp | hp <;> simp [hp]
    refine step_bus_waits ht h6 h7 fun o bs' a hport ha => ?_
    cases hb.symm.trans hport
    simp [busAnswer, expiredAnswer, hinf] at ha
  · have ha := busAnswer_expired hfin s.sensor ptr standby
    cases hd : s.params.timeoutDistinct with
    | true =>
      rw [hd] at ha
      exact step_bus_ends ht hb ha (seqBusAnswer_busTimeout hp)
    | false =>
      rw [hd] at ha
      exact step_bus_ends ht hb ha (seqBusAnswer_busFail hp)

end Sys2Proof.Machine
end

section
/-! SUPPORT. The DMUX events, each in full (41_display_scheduler.md rules R151 to R160), what a step can write of DMUX, and the pin
levels. -/

namespace Sys2Proof.Machine

variable {s t : State}

/-! ### The effect of each event -/

/-- Rule R154 with flag 0: the units digit on position 0. -/
theorem shown_of_flag_false {v b : Nat} (ht : tens v b < 16) (hu : units v b < 16) (hf : s.dmux.flag = false) :
    shown v b ht hu s = { s with dmux :=
      { counter := s.dmux.counter, flag := true, en0 := true, en1 := false, seg := s.params.digitCode[units v b] } } := by
  simp [shown, refreshed, shownDigit, hf]

/-- Rule R154 with flag 1: the tens digit on position 1. -/
theorem shown_of_flag_true {v b : Nat} (ht : tens v b < 16) (hu : units v b < 16) (hf : s.dmux.flag = true) :
    shown v b ht hu s = { s with dmux :=
      { counter := s.dmux.counter, flag := false, en0 := false, en1 := true, seg := s.params.digitCode[tens v b] } } := by
  simp [shown, refreshed, shownDigit, hf]

/-- Settles O40: TICK_A is its own definition, and a byte's addition is modulo 256. -/
theorem tickAEffect : Obligations.TickAEffect := fun s => ⟨rfl, BitVec.toNat_add s.dmux.counter 1⟩

/-- TICK_B whose output does not fail. -/
theorem exec_tickB_shown (hio : (s.params.ioFailPossible && s.ioFail) = false) :
    exec .tickB s = .next (takeEvent (shown s.dmux.counter.toNat 16 (hexDigits_lt _).1 (hexDigits_lt _).2 s)) := by
  show execTickB s = _
  rw [execTickB_eq, hio, if_neg Bool.false_ne_true]

/-- Settles O41: the counter's digits in radix 16 are in range, so the refresh shows the one the flag selects. -/
theorem tickBEffect : Obligations.TickBEffect := by
  intro s hio
  refine ⟨fun hf => ?_, fun hf => ?_⟩ <;> rw [exec_tickB_shown hio]
  · rw [shown_of_flag_false _ _ hf]
    rfl
  · rw [shown_of_flag_true _ _ hf]
    rfl

/-- UPDATE_DISPLAY with good operands, whose output does not fail. -/
theorem exec_updateDisplay_shown {v b : Byte} (hb : b ≠ 0) (ht : tens v.toNat b.toNat < 16)
    (hu : units v.toNat b.toNat < 16) (hio : (s.params.ioFailPossible && s.ioFail) = false) :
    exec (.updateDisplay v b) s = .next (takeEvent (respond .ok (shown v.toNat b.toNat ht hu s))) := by
  show execUpdateDisplay v b s = _
  rw [execUpdateDisplay_inRange hb ht hu, hio, if_neg Bool.false_ne_true]

/-- Settles O42: the same refresh with the digits of `v` in radix `b`, and the response. -/
theorem updateDisplayEffect : Obligations.UpdateDisplayEffect := by
  intro s v b ht hu hb hio
  have h := exec_updateDisplay_shown (s := s) hb ht hu hio
  refine ⟨fun hf => ?_, fun hf => ?_⟩
  · rw [shown_of_flag_false ht hu hf] at h
    exact h
  · rw [shown_of_flag_true ht hu hf] at h
    exact h

/-- Settles O43: the operands are looked at before the output is. -/
theorem updateDisplayRefusesOperands : Obligations.UpdateDisplayRefusesOperands := by
  refine fun s v b => ⟨rfl, fun hb hd => ?_⟩
  have hrange : digitsOutOfRange v.toNat b.toNat = true := by
    rw [← Bool.not_eq_false, digitsOutOfRange_eq_false]
    rintro ⟨ht, hu⟩
    exact hd.elim (Nat.not_lt.2 (Nat.le_of_lt_succ ht)) (Nat.not_lt.2 (Nat.le_of_lt_succ hu))
  show execUpdateDisplay v b s = _
  rw [execUpdateDisplay, if_neg hb, if_pos hrange]
  rfl

/-- Settles O44: the refresh emits IOERR and returns IO_ERROR with nothing written. -/
theorem failedRefreshChangesNothing : Obligations.FailedRefreshChangesNothing := by
  intro s v b hpossible hfail
  have hio : (s.params.ioFailPossible && s.ioFail) = true := by rw [hpossible, hfail, Bool.and_self]
  refine ⟨?_, fun hb ht hu => ?_⟩
  · show execTickB s = _
    rw [execTickB_eq, if_pos hio]
    rfl
  · show execUpdateDisplay v b s = _
    rw [execUpdateDisplay_inRange hb ht hu, if_pos hio]
    rfl

/-- Rule R152: a byte's digits in radix 16 are its nibbles. -/
theorem hexDigits_eq_nibbles (v : Byte) :
    tens v.toNat 16 = (v.extractLsb' 4 4).toNat ∧ units v.toNat 16 = (v.extractLsb' 0 4).toNat := by
  have hv := v.isLt
  simp only [tens, units, BitVec.extractLsb'_toNat, Nat.shiftRight_eq_div_pow]
  omega

/-- Settles O45: the nibbles bound the digits, and every event answers a next state. -/
theorem hexDigitsAndNoRomFault : Obligations.HexDigitsAndNoRomFault := by
  refine ⟨fun v => ?_, fun i s hi => ?_⟩
  · obtain ⟨ht, hu⟩ := hexDigits_lt v
    exact ⟨Nat.le_of_lt_succ ht, Nat.le_of_lt_succ hu, Nat.div_add_mod' v.toNat 16, hexDigits_eq_nibbles v⟩
  · obtain ⟨d, outs, h, -⟩ := exec_event_cases hi s
    exact ⟨_, h⟩

/-- Settles O46: both are the same refresh, in either case of the output. -/
theorem updateDisplaySixteenIsTickB : Obligations.UpdateDisplaySixteenIsTickB := by
  intro s
  obtain ⟨ht, hu⟩ := hexDigits_lt s.dmux.counter
  refine ⟨_, _, execTickB_eq s, execUpdateDisplay_inRange (base := 16) (by decide) ht hu, ?_⟩
  cases s.params.ioFailPossible && s.ioFail <;> rfl

/-! ### What a step can write -/

/-- Outside reset a step keeps the flag and the outputs, or is a refresh of them. -/
theorem step_display (h : step s = .next t) :
    (∃ ptr standby ans ts, s.turns = .reset ptr standby ans :: ts) ∨
      (t.dmux.flag = s.dmux.flag ∧ t.dmux.en0 = s.dmux.en0 ∧ t.dmux.en1 = s.dmux.en1 ∧ t.dmux.seg = s.dmux.seg) ∨
      (t.dmux.flag = !s.dmux.flag ∧ t.dmux.en0 = !s.dmux.flag ∧ t.dmux.en1 = s.dmux.flag ∧
        ∃ io ts w ws i, s.turns = .event io :: ts ∧ s.evtPort = w :: ws ∧ decode (.evt w) = .ok i ∧ i ≠ .tickA) := by
  rcases step_dmux h with ⟨ptr, standby, ans, ts, ht, -⟩ | ⟨hsame, -⟩ | ⟨io, ts, ht⟩
  · exact .inl ⟨ptr, standby, ans, ts, ht⟩
  · exact .inr (.inl (by simp [hsame]))
  · obtain ⟨-, -, -, -, -, -, -, -, -, -, hsame | ⟨w, ws, i, hw, hd, ⟨-, hcount⟩ | ⟨hne, pattern, hshown⟩⟩⟩ :=
      step_event_frame ht h
    · exact .inr (.inl (by simp [hsame]))
    · exact .inr (.inl (by simp [hcount]))
    · exact .inr (.inr ⟨by rw [hshown]; rfl, by rw [hshown]; rfl, by rw [hshown]; rfl, io, ts, w, ws, i, ht, hw, hd, hne⟩)

/-- Settles O48: what was written was written by a refresh. -/
theorem onlyRefreshWritesOutputs : Obligations.OnlyRefreshWritesOutputs := by
  intro s t h hne
  rcases step_display h with hreset | ⟨hf, h0, h1, hs⟩ | hrefresh
  · exact .inl hreset
  · simp [hf, h0, h1, hs] at hne
  · exact .inr hrefresh

/-- Outside reset only TICK_A writes the counter. -/
theorem step_counter (h : step s = .next t) :
    (∃ ptr standby ans ts, s.turns = .reset ptr standby ans :: ts) ∨ t.dmux.counter = s.dmux.counter ∨
      (t.dmux.counter = s.dmux.counter + 1 ∧ ∃ io ts w ws, s.turns = .event io :: ts ∧ s.evtPort = w :: ws ∧
        decode (.evt w) = .ok .tickA) := by
  rcases step_dmux h with ⟨ptr, standby, ans, ts, ht, -⟩ | ⟨hsame, -⟩ | ⟨io, ts, ht⟩
  · exact .inl ⟨ptr, standby, ans, ts, ht⟩
  · exact .inr (.inl (by rw [hsame]))
  · obtain ⟨-, -, -, -, -, -, -, -, -, -, hsame | ⟨w, ws, i, hw, hd, ⟨rfl, hcount⟩ | ⟨-, pattern, hshown⟩⟩⟩ :=
      step_event_frame ht h
    · exact .inr (.inl (by rw [hsame]))
    · exact .inr (.inr ⟨by rw [hcount], io, ts, w, ws, ht, hw, hd⟩)
    · exact .inr (.inl (by rw [hshown]; rfl))

/-- `s` with another counter. -/
def withCounter (c : Byte) (s : State) : State := { s with dmux := { s.dmux with counter := c } }

@[simp] theorem withCounter_params (c : Byte) (s : State) : (withCounter c s).params = s.params := rfl
@[simp] theorem withCounter_ioFail (c : Byte) (s : State) : (withCounter c s).ioFail = s.ioFail := rfl
@[simp] theorem withCounter_flag (c : Byte) (s : State) : (withCounter c s).dmux.flag = s.dmux.flag := rfl

/-- A refresh of a given value does the same whatever the counter holds. -/
theorem refresh_withCounter (c : Byte) (v b : Nat) (s : State) :
    refresh v b (withCounter c s) = (refresh v b s).map (Prod.map id (withCounter c)) := by
  cases hio : s.params.ioFailPossible && s.ioFail with
  | true =>
    simp only [refresh, withCounter_params, withCounter_ioFail, hio, ↓reduceIte]
    rfl
  | false =>
    simp only [refresh, withCounter_params, withCounter_ioFail, withCounter_flag, hio, Bool.false_eq_true, ↓reduceIte]
    cases rom s.params (shownDigit s.dmux.flag (tens v b) (units v b)) <;> rfl

/-- Rule R159: so does UPDATE_DISPLAY. -/
theorem execUpdateDisplay_withCounter (c v b : Byte) (s : State) :
    execUpdateDisplay v b (withCounter c s) = mapNext (withCounter c) (execUpdateDisplay v b s) := by
  unfold execUpdateDisplay
  rw [refresh_withCounter]
  split
  · rfl
  · split
    · rfl
    · cases refresh v.toNat b.toNat s <;> rfl

/-- Settles O47: the step law, and UPDATE_DISPLAY's commuting with a change of the counter. -/
theorem onlyTickAWritesCounter : Obligations.OnlyTickAWritesCounter := by
  refine ⟨fun s t h hne => ?_, fun s v b c => ?_⟩
  · exact (step_counter h).imp_right (·.resolve_left hne)
  · obtain ⟨d, outs, h, -, hd⟩ := exec_event_cases (i := .updateDisplay v b) rfl s
    refine ⟨_, h, ?_, (execUpdateDisplay_withCounter c v b s).trans (congrArg (mapNext (withCounter c)) h)⟩
    rcases hd with ⟨htick, -⟩ | ⟨-, rfl | ⟨pattern, rfl⟩⟩
    · cases htick
    · rfl
    · rfl

/-! ### Pins -/

theorem pinLevel_eq_iff (onLevel on : Bool) : pinLevel onLevel on = onLevel ↔ on = true := by
  cases onLevel <;> cases on <;> decide

theorem pinLevel_eq_not_iff (onLevel on : Bool) : pinLevel onLevel on = !onLevel ↔ on = false := by
  cases onLevel <;> cases on <;> decide

/-- Settles O49: a pin is at its on level exactly when its register says on. -/
theorem pinLevels : Obligations.PinLevels := by
  intro s
  refine ⟨fun h1 => ?_, pinLevel_eq_iff .., pinLevel_eq_iff .., fun i => pinLevel_eq_iff ..⟩
  have hen : s.dmux.en0 = true ↔ s.dmux.en1 = false := by rw [h1, Bool.not_eq_false']
  exact (pinLevel_eq_iff ..).trans (hen.trans (pinLevel_eq_not_iff ..).symm)

end Sys2Proof.Machine
end

section
/-! SUPPORT. Runs of DMUX events (41_display_scheduler.md rules R161, R162; 60_exceptions.md rule R190): what one event adds to the
counter, and so what a run of them does, one that the agents repeat for ever included; and how refreshes alternate. -/

namespace Sys2Proof.Machine

variable {s t : State}

/-! ### Counting -/

theorem tickACount_succ (n : Nat) (ws : List EvtWord) : tickACount (n + 1) ws = tickACount 1 ws + tickACount n ws.tail := by
  cases ws with
  | nil => simp [tickACount]
  | cons w ws => simp [tickACount, List.countP_cons, Nat.add_comm]

theorem tickACount_one_cons (w : EvtWord) (ws : List EvtWord) :
    tickACount 1 (w :: ws) = if evtKind w = 1 then 1 else 0 := by
  simp [tickACount, evtKind, List.countP_cons]
  rfl

/-- An event counts up exactly when its word is a TICK_A's. -/
theorem exec_event_counter {w : EvtWord} {i : Instr} (hd : decodeEvt w = .ok i) (h : exec i s = .next t) :
    t.dmux.counter = s.dmux.counter + BitVec.ofNat 8 (if evtKind w = 1 then 1 else 0) := by
  obtain ⟨d, outs, h', -, hd'⟩ := exec_event_cases (decodeEvt_isEvent hd) s
  cases h'.symm.trans h
  show d.counter = _
  rcases decodeEvt_cases hd with ⟨rfl, hk⟩ | ⟨rfl, hk⟩ | ⟨rfl, hk⟩ <;>
    rcases hd' with ⟨hi, hcount⟩ | ⟨hi, hsame | ⟨pattern, hshown⟩⟩
  · rw [hcount, hk]
    rfl
  all_goals simp_all [refreshed]

/-- A turn of DMUX takes the head of its port, and counts it if it is a TICK_A. -/
theorem step_event_counter {io : Bool} {ts : List Turn} (ht : s.turns = .event io :: ts) (h : step s = .next t) :
    t.dmux.counter = s.dmux.counter + BitVec.ofNat 8 (tickACount 1 s.evtPort) := by
  rw [step_of_turn ht] at h
  rcases eventTurn_cases (s := { s with turns := ts, ioFail := io }) h with
    ⟨hnil, rfl⟩ | ⟨w, ws, r, hport, hd, rfl⟩ | ⟨w, ws, i, hport, hd, h⟩
  · simp [show s.evtPort = [] from hnil, tickACount]
  · have hk : evtKind w ≠ 1 := fun hk => by simp [decodeEvt, hk] at hd
    rw [show s.evtPort = w :: ws from hport, tickACount_one_cons, if_neg hk]
    exact (BitVec.add_zero _).symm
  · rw [show s.evtPort = w :: ws from hport, tickACount_one_cons]
    exact exec_event_counter (s := { s with turns := ts, ioFail := io }) hd h

/-- A run of events takes them in order, and the counter moves by the TICK_As among them. -/
theorem runs_events {n : Nat} (hn : n ≤ s.turns.length) (hev : ∀ tn ∈ s.turns.take n, tn.isEvent = true) :
    ∃ t, Runs n s t ∧ t.dmux.counter = s.dmux.counter + BitVec.ofNat 8 (tickACount n s.evtPort) ∧
      t.turns = s.turns.drop n ∧ t.evtPort = s.evtPort.drop n ∧ t.supply = s.supply := by
  induction n generalizing s with
  | zero => exact ⟨s, runs_zero.2 rfl, by simp [tickACount], rfl, rfl, rfl⟩
  | succ n ih =>
    obtain ⟨tn, ts, ht⟩ := List.exists_cons_of_length_pos (Nat.zero_lt_of_lt hn)
    rw [ht, List.take_succ_cons, List.forall_mem_cons] at hev
    obtain ⟨htn, hev⟩ := hev
    cases tn <;> simp only [Turn.isEvent, Bool.false_eq_true] at htn
    rename_i io
    obtain ⟨u, hu, hport⟩ := step_event_total ht
    obtain ⟨hturns, hsupply⟩ := step_turns ht hu
    have hlen : n ≤ u.turns.length := by
      rw [hturns]
      simpa [ht] using hn
    obtain ⟨t, hrun, hcounter, hturns', hport', hsupply'⟩ := ih hlen (by rwa [hturns])
    refine ⟨t, runs_cons hu hrun, ?_, ?_, ?_, hsupply'.trans hsupply⟩
    · rw [hcounter, step_event_counter ht hu, hport, tickACount_succ n s.evtPort, BitVec.ofNat_add, BitVec.add_assoc]
    · rw [hturns', hturns, ht, List.drop_succ_cons]
    · rw [hport', hport, List.drop_tail]

/-- Settles O50: the run of events, and what its count is modulo 256. -/
theorem counterCountsTicks : Obligations.CounterCountsTicks := by
  intro n s hn hev
  obtain ⟨t, hrun, hcounter, -⟩ := runs_events hn hev
  refine ⟨t, hrun, hcounter, fun h256 => ?_, fun hpos hlt heq => ?_⟩
  · rw [hcounter, h256]
    exact BitVec.add_zero _
  · have hzero : BitVec.ofNat 8 (tickACount n s.evtPort) = 0 := by simpa [hcounter] using heq
    have hmod := congrArg BitVec.toNat hzero
    rw [BitVec.toNat_ofNat, Nat.mod_eq_of_lt hlt] at hmod
    exact hpos.ne' hmod

/-! ### Rounds that repeat -/

/-- One round: it arrives, and its events are taken. -/
theorem runs_round {round : Arrival} (ht : s.turns = []) (he : s.evtPort = []) (hs : s.supply = .repeating round)
    (hev : ∀ tn ∈ round.turns, tn.isEvent = true) (hlen : round.turns.length = round.evts.length) :
    ∃ t, Runs (round.evts.length + 1) s t ∧ t.turns = [] ∧ t.evtPort = [] ∧ t.supply = .repeating round ∧
      t.dmux.counter = s.dmux.counter + BitVec.ofNat 8 (tickACount round.evts.length round.evts) := by
  have hstep : step s = .next (arrive round s) := by rw [step_of_noTurn ht, replenish_of_repeating hs]
  have hturns : (arrive round s).turns = round.turns := by rw [arrive_turns, ht, List.nil_append]
  have hport : (arrive round s).evtPort = round.evts := by rw [arrive_evtPort, he, List.nil_append]
  obtain ⟨t, hrun, hcounter, ht', he', hs'⟩ := runs_events (s := arrive round s) (n := round.evts.length)
    (by rw [hturns, hlen]) (fun tn h => hev tn (hturns ▸ List.mem_of_mem_take h))
  refine ⟨t, runs_cons hstep hrun, ?_, ?_, hs'.trans hs, ?_⟩
  · rw [ht', hturns, ← hlen, List.drop_length]
  · rw [he', hport, List.drop_length]
  · rw [hcounter, hport, arrive_dmux]

/-- Settles O58, by induction on the number of rounds. -/
theorem endlessTicksAreTaken : Obligations.EndlessTicksAreTaken := by
  intro s round m ht he hs hev hlen
  induction m generalizing s with
  | zero => exact ⟨s, by rw [Nat.zero_mul]; exact runs_zero.2 rfl, ht, he, hs, by simp⟩
  | succ m ih =>
    obtain ⟨u, hround, htu, heu, hsu, hcu⟩ := runs_round ht he hs hev hlen
    obtain ⟨t, hrounds, htt, het, hst, hct⟩ := ih u htu heu hsu
    refine ⟨t, ?_, htt, het, hst, ?_⟩
    · rw [Nat.succ_mul, Nat.add_comm]
      exact runs_trans hround hrounds
    · rw [hct, hcu, Nat.succ_mul, BitVec.ofNat_add, BitVec.add_assoc, BitVec.add_comm (BitVec.ofNat 8 _)]

/-! ### Refreshes -/

theorem refreshTotal_succ (h : step s = .next t) (n : Nat) :
    refreshTotal (n + 1) s = (if refreshes s t then 1 else 0) + refreshTotal n t := by
  simp only [refreshTotal, h]

theorem refreshCount_succ (position0 : Bool) (h : step s = .next t) (n : Nat) :
    refreshCount position0 (n + 1) s =
      (if refreshes s t && drives position0 t then 1 else 0) + refreshCount position0 n t := by
  simp only [refreshCount, h]

/-- Rule R154: a step that is no reset keeps the flag, or is a refresh that drives the position the flag selected. -/
theorem refresh_drives (h : step s = .next t) (hno : ∀ tn ts, s.turns = tn :: ts → tn.isReset = false) :
    (refreshes s t = false ∧ t.dmux.flag = s.dmux.flag) ∨
      (refreshes s t = true ∧ t.dmux.flag = !s.dmux.flag ∧ drives (!s.dmux.flag) t = true ∧
        drives s.dmux.flag t = false) := by
  rcases step_display h with ⟨ptr, standby, ans, ts, ht⟩ | ⟨hflag, -⟩ | ⟨hflag, hen0, hen1, -⟩
  · exact absurd (hno _ _ ht) (by simp)
  · exact .inl ⟨by simp [refreshes, hflag], hflag⟩
  · refine .inr ⟨by simp [refreshes, hflag], hflag, ?_, ?_⟩
    · simp [drives, hen0, hen1]
    · simp [drives, hen0]

/-- Settles O51, by induction on the number of steps: after a refresh the flag selects the other position, so the two counts change
places. -/
theorem refreshesAlternate : Obligations.RefreshesAlternate := by
  intro n s hno
  induction n generalizing s with
  | zero => simp [refreshCount, refreshTotal]
  | succ n ih =>
    cases h : step s with
    | fault r => simp [refreshCount, refreshTotal, h]
    | refused r => simp [refreshCount, refreshTotal, h]
    | next t =>
      obtain ⟨hfirst, hrest⟩ := noReset_of_inputs h hno
      obtain ⟨hsel, hother⟩ := ih t hrest
      rw [refreshCount_succ _ h, refreshCount_succ _ h, refreshTotal_succ h]
      rcases refresh_drives h hfirst with ⟨hr, hflag⟩ | ⟨hr, hflag, hd, hd'⟩
      · rw [hflag] at hsel hother
        simp [hr, hsel, hother]
      · rw [hflag, Bool.not_not] at hsel
        rw [hflag] at hother
        simp only [hr, hd, hd', hsel, hother, Bool.and_self, Bool.and_false, Bool.false_eq_true, if_true, if_false]
        omega

end Sys2Proof.Machine
end

section
/-! SUPPORT. Two runs in which a unit finds the same (00_scope.md rule R8, 41_display_scheduler.md rule R164). `runs_agree` is the one
induction over two runs of different lengths: steps that are nothing to a unit keep what is looked at of the state, and steps on
the same label keep it equal. What remains for each unit is that its own turn depends only on its registers, the parameters and
what it finds. -/

namespace Sys2Proof.Machine

/-! ### Two runs with the same labels -/

section Runs

variable {α β : Type} (lab : State → Option α)

/-- The labels of the next `n` steps; a fault or refusal ends them. -/
def labels : Nat → State → List α
  | 0, _ => []
  | n + 1, s =>
    match step s with
    | .next t => (lab s).toList ++ labels n t
    | .fault _ | .refused _ => []

variable {lab} {view : State → β} {I : Nat → State → Prop}

theorem labels_succ {s t : State} (h : step s = .next t) (n : Nat) :
    labels lab (n + 1) s = (lab s).toList ++ labels lab n t := by
  simp only [labels, h]

/-- What may be assumed of the state before `n` more steps, step by step. -/
def KeptBySteps (I : Nat → State → Prop) : Prop := ∀ n s t, I (n + 1) s → step s = .next t → I n t

/-- A step without a label does not change the view. -/
def QuietKeeps (lab : State → Option α) (view : State → β) (I : Nat → State → Prop) : Prop :=
  ∀ n s t, I (n + 1) s → lab s = none → step s = .next t → view t = view s

/-- Two steps on the same label keep equal views equal. -/
def LabelDecides (lab : State → Option α) (view : State → β) (I : Nat → State → Prop) : Prop :=
  ∀ n m s t s' t' x, I (n + 1) s → I (m + 1) s' → lab s = some x → lab s' = some x → step s = .next t →
    step s' = .next t' → view s = view s' → view t = view t'

theorem view_of_labels_nil (hI : KeptBySteps I) (hquiet : QuietKeeps lab view I) {n : Nat} {s t : State} (hs : I n s)
    (h : Runs n s t) (hl : labels lab n s = []) : view t = view s := by
  induction n generalizing s with
  | zero => rw [runs_zero.1 h]
  | succ n ih =>
    obtain ⟨u, hu, h⟩ := (runs_succ n).1 h
    rw [labels_succ hu, List.append_eq_nil_iff] at hl
    rw [ih (hI n s u hs hu) h hl.2, hquiet n s u hs (Option.toList_eq_nil_iff.1 hl.1) hu]

/-- A run with a first label comes to the step that has it. -/
theorem exists_step_of_labels_cons (hI : KeptBySteps I) (hquiet : QuietKeeps lab view I) {n : Nat} {s t : State} {x : α}
    {xs : List α} (hs : I n s) (h : Runs n s t) (hl : labels lab n s = x :: xs) :
    ∃ m s₁ u, I (m + 1) s₁ ∧ view s₁ = view s ∧ lab s₁ = some x ∧ step s₁ = .next u ∧ Runs m u t ∧ labels lab m u = xs := by
  induction n generalizing s with
  | zero => simp [labels] at hl
  | succ n ih =>
    obtain ⟨u, hu, h⟩ := (runs_succ n).1 h
    rw [labels_succ hu] at hl
    cases hx : lab s with
    | none =>
      rw [hx, Option.toList_none, List.nil_append] at hl
      obtain ⟨m, s₁, u₁, hi, hv, hrest⟩ := ih (hI n s u hs hu) h hl
      exact ⟨m, s₁, u₁, hi, hv.trans (hquiet n s u hs hx hu), hrest⟩
    | some y =>
      rw [hx, Option.toList_some, List.singleton_append, List.cons.injEq] at hl
      exact ⟨n, s, u, hs, rfl, hx.trans (congrArg some hl.1), hu, h, hl.2⟩

/-- Two runs with the same labels from states with the same view end with the same view. -/
theorem runs_agree (hI : KeptBySteps I) (hquiet : QuietKeeps lab view I) (hdec : LabelDecides lab view I) {n m : Nat}
    {s t s' t' : State} (hs : I n s) (hs' : I m s') (h : Runs n s t) (h' : Runs m s' t')
    (hl : labels lab n s = labels lab m s') (hv : view s = view s') : view t = view t' := by
  induction n generalizing m s s' with
  | zero =>
    rw [← runs_zero.1 h, hv, view_of_labels_nil hI hquiet hs' h' hl.symm]
  | succ n ih =>
    obtain ⟨u, hu, h⟩ := (runs_succ n).1 h
    have hu' := hI n s u hs hu
    rw [labels_succ hu] at hl
    cases hx : lab s with
    | none =>
      rw [hx, Option.toList_none, List.nil_append] at hl
      exact ih hu' hs' h h' hl ((hquiet n s u hs hx hu).trans hv)
    | some x =>
      rw [hx, Option.toList_some, List.singleton_append] at hl
      obtain ⟨k, s₁, u₁, hi, hv₁, hx₁, hu₁, h₁, hl₁⟩ := exists_step_of_labels_cons hI hquiet hs' h' hl.symm
      exact ih hu' (hI k s₁ u₁ hi hu₁) h h₁ hl₁.symm (hdec n k s u s₁ u₁ x hs hi hx hx₁ hu hu₁ (hv.trans hv₁.symm))

end Runs

/-! ### The labels of the two obligations -/

variable {s t s' t' : State}

/-- What the next turn finds, if `p` looks at it. -/
def inputLabel (p : Input → Bool) (s : State) : Option Input := (s.turns.head?.map (inputOf s)).filter p

/-- The next turn, if `p` looks at it. -/
def turnLabel (p : Turn → Bool) (s : State) : Option Turn := s.turns.head?.filter p

theorem labels_inputLabel (p : Input → Bool) (n : Nat) (s : State) :
    labels (inputLabel p) n s = (inputs n s).filter p := by
  induction n generalizing s with
  | zero => rfl
  | succ n ih =>
    cases h : step s with
    | next t => rw [labels_succ h, inputs_succ h, List.filter_append, ih, inputLabel, Option.toList_filter]
    | fault r => simp only [labels, inputs, h, List.filter_nil]
    | refused r => simp only [labels, inputs, h, List.filter_nil]

/-- No arrival comes in the next `n` steps: the turns last, or nothing more is to come. -/
def NoArrival (n : Nat) (s : State) : Prop := n ≤ s.turns.length ∨ s.supply = .ended

theorem noArrival_step {n : Nat} (hn : NoArrival (n + 1) s) (h : step s = .next t) :
    NoArrival n t ∧ t.turns = s.turns.tail ∧ (s.turns = [] → t = s) := by
  cases ht : s.turns with
  | nil =>
    have hended : s.supply = .ended := hn.resolve_left (by simp [ht])
    rw [step_of_ended ht hended] at h
    cases h
    exact ⟨.inr hended, ht, fun _ => rfl⟩
  | cons tn rest =>
    obtain ⟨hrest, hsupply⟩ := step_turns ht h
    refine ⟨?_, hrest, nofun⟩
    rw [NoArrival, hrest, hsupply]
    exact hn.imp_left fun hlen => by simpa [ht] using hlen

theorem labels_turnLabel (p : Turn → Bool) {n : Nat} (hn : NoArrival n s) (h : Runs n s t) :
    labels (turnLabel p) n s = (s.turns.take n).filter p := by
  induction n generalizing s with
  | zero => rfl
  | succ n ih =>
    obtain ⟨u, hu, h⟩ := (runs_succ n).1 h
    obtain ⟨hn', hturns, -⟩ := noArrival_step hn hu
    rw [labels_succ hu, ih hn' h, hturns, turnLabel]
    cases s.turns with
    | nil => simp
    | cons tn rest => rw [List.head?_cons, List.tail_cons, List.take_succ_cons, Option.toList_filter, ← List.filter_append]; rfl

/-- A turn that finds something found it at the head of the schedule. -/
theorem turns_of_inputLabel {p : Input → Bool} {x : Input} (h : inputLabel p s = some x) :
    ∃ tn ts, s.turns = tn :: ts ∧ inputOf s tn = x ∧ p x = true := by
  cases ht : s.turns with
  | nil => simp [inputLabel, ht] at h
  | cons tn ts =>
    simp only [inputLabel, ht, List.head?_cons, Option.map_some, Option.filter_eq_some_iff, Option.some.injEq] at h
    exact ⟨tn, ts, rfl, h⟩

theorem not_of_inputLabel_none {p : Input → Bool} {tn : Turn} {ts : List Turn} (h : inputLabel p s = none)
    (ht : s.turns = tn :: ts) : p (inputOf s tn) = false := by
  simpa [inputLabel, ht, Option.filter_eq_none_iff] using h

theorem turns_of_turnLabel {p : Turn → Bool} {tn : Turn} (h : turnLabel p s = some tn) :
    (∃ ts, s.turns = tn :: ts) ∧ p tn = true := by
  cases ht : s.turns with
  | nil => simp [turnLabel, ht] at h
  | cons tn' ts =>
    simp only [turnLabel, ht, List.head?_cons, Option.filter_eq_some_iff, Option.some.injEq] at h
    exact ⟨⟨ts, by rw [h.1]⟩, h.2⟩

theorem not_of_turnLabel_none {p : Turn → Bool} {tn : Turn} {ts : List Turn} (h : turnLabel p s = none)
    (ht : s.turns = tn :: ts) : p tn = false := by
  simpa [turnLabel, ht, Option.filter_eq_none_iff] using h

end Sys2Proof.Machine
end

section
/-! SUPPORT. DMUX depends on its own registers, its events, DIGIT_CODE and IO_FAIL_POSSIBLE alone (41_display_scheduler.md rule
R164). -/

namespace Sys2Proof.Machine

variable {s t s' t' : State}

/-! ### An event, from two states with the same DMUX -/

theorem shown_dmux_congr {v b : Nat} (ht : tens v b < 16) (hu : units v b < 16) (hd : s.dmux = s'.dmux)
    (hcode : s.params.digitCode = s'.params.digitCode) : (shown v b ht hu s).dmux = (shown v b ht hu s').dmux := by
  simp only [shown, hd, hcode]

/-- DMUX after a refresh, in either case of its output. -/
theorem ite_dmux_congr {fails : Bool} {s₁ s₁' s₂ s₂' : State} (h₁ : s₁.dmux = s₁'.dmux) (h₂ : s₂.dmux = s₂'.dmux) :
    (if fails then s₁ else s₂).dmux = (if fails then s₁' else s₂').dmux := by
  cases fails
  · exact h₂
  · exact h₁

theorem exec_event_congr {i : Instr} (hi : i.isCommand = false) (hd : s.dmux = s'.dmux)
    (hcode : s.params.digitCode = s'.params.digitCode)
    (hio : (s.params.ioFailPossible && s.ioFail) = (s'.params.ioFailPossible && s'.ioFail))
    (h : exec i s = .next t) (h' : exec i s' = .next t') : t.dmux = t'.dmux := by
  cases i <;> simp only [Instr.isCommand, Bool.true_eq_false] at hi
  case tickA =>
    cases h
    cases h'
    simp [hd]
  case tickB =>
    cases (execTickB_eq s).symm.trans h
    cases (execTickB_eq s').symm.trans h'
    simp only [takeEvent_dmux, hio]
    refine ite_dmux_congr hd ?_
    simp only [hd]
    exact shown_dmux_congr _ _ hd hcode
  case updateDisplay v b =>
    by_cases hb : b = 0
    · subst hb
      cases h
      cases h'
      exact hd
    · cases hr : digitsOutOfRange v.toNat b.toNat with
      | true =>
        have hrefused (u : State) : exec (.updateDisplay v b) u = .next (takeEvent (respond .rangeErr u)) := by
          show execUpdateDisplay v b u = _
          rw [execUpdateDisplay, if_neg hb, if_pos hr]
        cases (hrefused s).symm.trans h
        cases (hrefused s').symm.trans h'
        exact hd
      | false =>
        obtain ⟨ht, hu⟩ := digitsOutOfRange_eq_false.1 hr
        cases (execUpdateDisplay_inRange hb ht hu).symm.trans h
        cases (execUpdateDisplay_inRange hb ht hu).symm.trans h'
        simp only [takeEvent_dmux, hio]
        exact ite_dmux_congr hd (shown_dmux_congr ht hu hd hcode)

/-- What DMUX's turn depends on: its registers, the two parameters, the word it finds and the draw. -/
theorem step_event_congr {io : Bool} {ts ts' : List Turn} (ht : s.turns = .event io :: ts)
    (ht' : s'.turns = .event io :: ts') (hw : s.evtPort.head? = s'.evtPort.head?) (hd : s.dmux = s'.dmux)
    (hcode : s.params.digitCode = s'.params.digitCode) (hpos : s.params.ioFailPossible = s'.params.ioFailPossible)
    (h : step s = .next t) (h' : step s' = .next t') : t.dmux = t'.dmux := by
  cases hport : s.evtPort with
  | nil =>
    have hport' : s'.evtPort = [] := by simpa [hport] using hw.symm
    rw [step_of_turn ht] at h
    rw [step_of_turn ht'] at h'
    simp only [turnStep, eventTurn, hport] at h
    simp only [turnStep, eventTurn, hport'] at h'
    cases h
    cases h'
    exact hd
  | cons w ws =>
    obtain ⟨ws', hport'⟩ : ∃ ws', s'.evtPort = w :: ws' := by
      rw [hport, List.head?_cons] at hw
      exact List.head?_eq_some_iff.1 hw.symm
    cases hdec : decodeEvt w with
    | error r =>
      rw [step_noEvent ht hport hdec] at h
      rw [step_noEvent ht' hport' hdec] at h'
      cases h
      cases h'
      exact hd
    | ok i =>
      rw [step_event ht hport hdec] at h
      rw [step_event ht' hport' hdec] at h'
      refine exec_event_congr (s := { s with turns := ts, ioFail := io }) (s' := { s' with turns := ts', ioFail := io })
        (decodeEvt_isEvent hdec) hd hcode ?_ h h'
      show (s.params.ioFailPossible && io) = (s'.params.ioFailPossible && io)
      rw [hpos]

/-! ### Runs -/

/-- What DMUX's registers depend on. -/
def dmuxView (s : State) : Dmux × Vector Byte 16 × Bool := (s.dmux, s.params.digitCode, s.params.ioFailPossible)

theorem dmuxView_congr (hd : t.dmux = t'.dmux) (hp : t.params = s.params) (hp' : t'.params = s'.params)
    (hv : dmuxView s = dmuxView s') : dmuxView t = dmuxView t' := by
  simp only [dmuxView, Prod.mk.injEq] at hv ⊢
  exact ⟨hd, by rw [hp, hp', hv.2.1], by rw [hp, hp', hv.2.2]⟩

/-- A step that is neither a reset nor DMUX's leaves DMUX alone, and its port unless an arrival joins it. -/
theorem step_dmux_quiet (hno : ∀ tn ts, s.turns = tn :: ts → tn.isReset = false)
    (hne : ∀ tn ts, s.turns = tn :: ts → tn.isEvent = false) (h : step s = .next t) :
    dmuxView t = dmuxView s ∧ (s.turns = [] ∧ t = replenish s ∨ t.evtPort = s.evtPort) := by
  rcases step_dmux h with ⟨ptr, standby, ans, ts, ht, -⟩ | ⟨hsame, -, hport⟩ | ⟨io, ts, ht⟩
  · exact absurd (hno _ _ ht) (by simp)
  · exact ⟨by rw [dmuxView, hsame, step_params h, dmuxView], hport⟩
  · exact absurd (hne _ _ ht) (by simp)

/-- The head of the schedule is no reset. -/
theorem head_noReset {n : Nat} (h : ∀ tn ∈ s.turns.take (n + 1), tn.isReset = false) :
    ∀ tn ts, s.turns = tn :: ts → tn.isReset = false :=
  fun tn ts ht => h tn (by simp [ht])

/-- DMUX's registers, where it finds the same events. -/
theorem dmuxView_of_inputs {n m : Nat} (hs : ∀ x ∈ inputs n s, x.isReset = false)
    (hs' : ∀ x ∈ inputs m s', x.isReset = false) (h : Runs n s t) (h' : Runs m s' t')
    (hl : (inputs n s).filter Input.isEvent = (inputs m s').filter Input.isEvent) (hv : dmuxView s = dmuxView s') :
    dmuxView t = dmuxView t' := by
  refine runs_agree (lab := inputLabel Input.isEvent) (I := fun n s => ∀ x ∈ inputs n s, x.isReset = false)
    (fun n s t hs h => (noReset_of_inputs h hs).2) (fun n s t hs hnone h => ?_) ?_ hs hs' h h'
    (by rw [labels_inputLabel, labels_inputLabel, hl]) hv
  · refine (step_dmux_quiet (noReset_of_inputs h hs).1 (fun tn ts ht => ?_) h).1
    rw [← isEvent_inputOf s]
    exact not_of_inputLabel_none hnone ht
  · intro n m s t s' t' x _ _ hx hx' h h' hv
    obtain ⟨tn, ts, ht, rfl, hev⟩ := turns_of_inputLabel hx
    obtain ⟨tn', ts', ht', heq, -⟩ := turns_of_inputLabel hx'
    cases tn <;> simp only [isEvent_inputOf, Turn.isEvent, Bool.false_eq_true] at hev
    cases tn' <;> simp only [inputOf, reduceCtorEq, Input.event.injEq] at heq
    obtain ⟨hw, rfl⟩ := heq
    obtain ⟨hd, hcode, hpos⟩ : s.dmux = s'.dmux ∧ s.params.digitCode = s'.params.digitCode ∧
        s.params.ioFailPossible = s'.params.ioFailPossible := by simpa [dmuxView] using hv
    exact dmuxView_congr (step_event_congr ht ht' hw.symm hd hcode hpos h h') (step_params h) (step_params h') hv

/-- DMUX's registers and its port, where the same events stand in it and the same turns come. -/
theorem dmuxView_of_turns {n m : Nat} (ha : NoArrival n s) (ha' : NoArrival m s')
    (hs : ∀ tn ∈ s.turns.take n, tn.isReset = false) (hs' : ∀ tn ∈ s'.turns.take m, tn.isReset = false)
    (h : Runs n s t) (h' : Runs m s' t')
    (hl : (s.turns.take n).filter Turn.isEvent = (s'.turns.take m).filter Turn.isEvent)
    (hv : (dmuxView s, s.evtPort) = (dmuxView s', s'.evtPort)) : (dmuxView t, t.evtPort) = (dmuxView t', t'.evtPort) := by
  refine runs_agree (lab := turnLabel Turn.isEvent) (view := fun s => (dmuxView s, s.evtPort))
    (I := fun n s => NoArrival n s ∧ ∀ tn ∈ s.turns.take n, tn.isReset = false)
    (fun n s t hi h => ?_) (fun n s t hi hnone h => ?_) ?_ ⟨ha, hs⟩ ⟨ha', hs'⟩ h h'
    (by rw [labels_turnLabel _ ha h, labels_turnLabel _ ha' h', hl]) hv
  · obtain ⟨ha, hturns, -⟩ := noArrival_step hi.1 h
    refine ⟨ha, fun tn htn => ?_⟩
    rw [hturns] at htn
    cases ht : s.turns with
    | nil => simp [ht] at htn
    | cons hd tl =>
      rw [ht, List.tail_cons] at htn
      exact hi.2 tn (by rw [ht, List.take_succ_cons]; exact List.mem_cons_of_mem _ htn)
  · obtain ⟨hview, hport⟩ := step_dmux_quiet (head_noReset hi.2) (fun tn ts ht => not_of_turnLabel_none hnone ht) h
    have hport : t.evtPort = s.evtPort := by
      rcases hport with ⟨hnil, -⟩ | hport
      · rw [(noArrival_step hi.1 h).2.2 hnil]
      · exact hport
    exact Prod.ext hview hport
  · intro n m s t s' t' tn _ _ hx hx' h h' hv
    obtain ⟨⟨ts, ht⟩, hev⟩ := turns_of_turnLabel hx
    obtain ⟨⟨ts', ht'⟩, -⟩ := turns_of_turnLabel hx'
    cases tn <;> simp only [Turn.isEvent, Bool.false_eq_true] at hev
    obtain ⟨⟨hd, hcode, hpos⟩, hport⟩ : (s.dmux = s'.dmux ∧ s.params.digitCode = s'.params.digitCode ∧
        s.params.ioFailPossible = s'.params.ioFailPossible) ∧ s.evtPort = s'.evtPort := by simpa [dmuxView] using hv
    have hd' := step_event_congr ht ht' (by rw [hport]) hd hcode hpos h h'
    obtain ⟨-, -, -, -, -, -, -, -, hport₁, -⟩ := step_event_frame ht h
    obtain ⟨-, -, -, -, -, -, -, -, hport₂, -⟩ := step_event_frame ht' h'
    exact Prod.ext (dmuxView_congr hd' (step_params h) (step_params h') (Prod.mk.inj hv).1)
      (by simp only [hport₁, hport₂, hport])

/-- Settles O52: the two runs agree on what DMUX's registers depend on, and in the second case on its port too. -/
theorem dmuxIndependentOfSeqAndTime : Obligations.DmuxIndependentOfSeqAndTime := by
  intro n m s s' t t' hd hcode hpos h h'
  have hv : dmuxView s = dmuxView s' := by rw [dmuxView, hd, hcode, hpos, dmuxView]
  refine ⟨fun hs hs' hl => ?_, fun hport ha ha' hs hs' hl => ?_⟩
  · exact (Prod.mk.inj (dmuxView_of_inputs hs hs' h h' hl hv)).1
  · obtain ⟨hview, hports⟩ := Prod.mk.inj (dmuxView_of_turns ha ha' hs hs' h h' hl (by rw [hv, hport]))
    exact ⟨(Prod.mk.inj hview).1, hports⟩

end Sys2Proof.Machine
end

section
/-! SUPPORT. SEQ and the sensor depend on themselves, their ports and the parameters alone (00_scope.md rule R8): each turn of SEQ, a
reset and a change of the sensor do the same to two states that agree on these. -/

namespace Sys2Proof.Machine

variable {s t s' t' u : State}

/-- What SEQ and the sensor depend on, beside what they find in their turns. -/
def seqView (s : State) : Seq × Sensor × Params := (s.seq, s.sensor, s.params)

/-- SEQ's ports, and what is owed on them. -/
def seqPorts (s : State) : List CmdWord × List BusOutcome × Nat × Nat × Nat :=
  (s.cmdPort, s.busPort, s.timerPort, s.busOwed, s.timerOwed)

theorem seqView_eq_iff : seqView s = seqView s' ↔ s.seq = s'.seq ∧ s.sensor = s'.sensor ∧ s.params = s'.params := by
  simp only [seqView, Prod.mk.injEq]

theorem seqPorts_eq_iff : seqPorts s = seqPorts s' ↔ s.cmdPort = s'.cmdPort ∧ s.busPort = s'.busPort ∧
    s.timerPort = s'.timerPort ∧ s.busOwed = s'.busOwed ∧ s.timerOwed = s'.timerOwed := by
  simp only [seqPorts, Prod.mk.injEq]

/-- What a turn does to SEQ's side is the same from `s` to `t` as from `s'` to `t'`. -/
def SameEffect (s t s' t' : State) : Prop :=
  seqView t = seqView t' ∧ (seqPorts s = seqPorts s' → seqPorts t = seqPorts t')

/-! ### Offers -/

theorem offered_seq_congr {op : Op} {first first' : State → State}
    (hf : ∀ u u', u.seq = u'.seq → u.params = u'.params → (first u).seq = (first' u').seq) (hq : s.seq = s'.seq)
    (hp : s.params = s'.params) (h : offered op first s = .next t) (h' : offered op first' s' = .next t') :
    t.seq = t'.seq := by
  rcases offered_cases h with ⟨hidle, rfl⟩ | ⟨hbusy, rfl⟩ <;> rcases offered_cases h' with ⟨hidle', rfl⟩ | ⟨hbusy', rfl⟩
  · exact hf _ _ (by rw [accept_seq, accept_seq, hq]) hp
  · exact absurd (hq ▸ hidle) hbusy'
  · exact absurd (hq ▸ hidle') hbusy
  · exact hq

theorem exec_command_seq_congr {i : Instr} (hi : i.isCommand = true) (hq : s.seq = s'.seq) (hp : s.params = s'.params)
    (h : exec i s = .next t) (h' : exec i s' = .next t') : t.seq = t'.seq := by
  cases i <;> simp only [Instr.isCommand, Bool.false_eq_true] at hi
  all_goals exact offered_seq_congr (fun u u' hu hpu => by simp [hu, hpu, hp]) hq hp h h'

/-- A command word is taken from the port in IDLE, and only there. -/
theorem exec_command_cmdPort {i : Instr} (hi : i.isCommand = true) (h : exec i s = .next t) :
    t.cmdPort = if s.seq.phase = .idle then s.cmdPort.tail else s.cmdPort := by
  cases i <;> simp only [Instr.isCommand, Bool.false_eq_true] at hi
  all_goals
    obtain ⟨hidle, rfl⟩ | ⟨hbusy, rfl⟩ := offered_cases h
    · rw [if_pos hidle]
      rfl
    · rw [if_neg hbusy]

theorem offerTurn_congr (hv : seqView s = seqView s') (hc : s.cmdPort.head? = s'.cmdPort.head?)
    (h : offerTurn s = .next t) (h' : offerTurn s' = .next t') : SameEffect s t s' t' := by
  obtain ⟨hq, hz, hp⟩ := seqView_eq_iff.1 hv
  rcases offerTurn_cases h with ⟨hnil, rfl⟩ | ⟨w, ws, hport, h⟩ <;>
    rcases offerTurn_cases h' with ⟨hnil', rfl⟩ | ⟨w', ws', hport', h'⟩
  · exact ⟨hv, id⟩
  · simp [hnil, hport'] at hc
  · simp [hport, hnil'] at hc
  · obtain rfl : w = w' := by simpa [hport, hport'] using hc
    have hi := decodeCmd_isCommand w
    obtain ⟨hp₁, -, hz₁, -, hb₁, ht₁, -, -, -, ho₁⟩ := exec_command_frame hi h
    obtain ⟨hp₂, -, hz₂, -, hb₂, ht₂, -, -, -, ho₂⟩ := exec_command_frame hi h'
    refine ⟨seqView_eq_iff.2 ⟨exec_command_seq_congr hi hq hp h h', by rw [hz₁, hz₂, hz], by rw [hp₁, hp₂, hp]⟩,
      fun hports => ?_⟩
    obtain ⟨hc, hb, ht, ho⟩ := seqPorts_eq_iff.1 hports
    refine seqPorts_eq_iff.2 ⟨?_, by rw [hb₁, hb₂, hb], by rw [ht₁, ht₂, ht], ?_, ?_⟩
    · rw [exec_command_cmdPort hi h, exec_command_cmdPort hi h', hq, hc]
    · rw [ho₁.1, ho₂.1, ho.1]
    · rw [ho₁.2, ho₂.2, ho.2]

/-! ### Answers of BUS -/

theorem afterTx_seq_congr (hq : s.seq = s'.seq) (hp : s.params = s'.params) :
    (afterTx s).map State.seq = (afterTx s').map State.seq := by
  simp only [afterTx, hq]
  cases s'.seq.op <;> simp [hq, hp]

theorem pollNotReady_seq_congr (hq : s.seq = s'.seq) (hp : s.params = s'.params) :
    (pollNotReady s).seq = (pollNotReady s').seq := by
  simp only [pollNotReady, hq, hp]
  split <;> rfl

theorem afterStatus_seq_congr (b : Byte) (hq : s.seq = s'.seq) (hp : s.params = s'.params) :
    (afterStatus b s).map State.seq = (afterStatus b s').map State.seq := by
  simp only [afterStatus, hq]
  cases s'.seq.op with
  | wakeupAndRead => cases isReadyByte b <;> simp [hq, hp, pollNotReady_seq_congr hq hp]
  | _ => simp [hq]

theorem seqBusAnswer_seq_congr (a : BusAnswer) (hq : s.seq = s'.seq) (hp : s.params = s'.params) :
    (seqBusAnswer a s).map State.seq = (seqBusAnswer a s').map State.seq := by
  simp only [seqBusAnswer, hq]
  split
  · exact afterTx_seq_congr hq hp
  · exact afterStatus_seq_congr _ hq hp
  all_goals simp [hq]

/-- Where SEQ takes BUS's answer in `s`, it takes it in a state that agrees with `s`, to the same effect. -/
theorem busTurn_follows {o : BusOutcome} {bs : List BusOutcome} {a : BusAnswer} (hv : seqView s = seqView s')
    (hb : s.busPort.head? = s'.busPort.head?) (hport : s.busPort = o :: bs)
    (ha : busAnswer s.params s.sensor o = some a) (hu : seqBusAnswer a s = some u) (h' : busTurn s' = .next t') :
    t'.seq = u.seq ∧ t'.sensor = sensorAfter s.params s.seq.pending o s.sensor ∧ t'.busPort = s'.busPort.tail := by
  obtain ⟨hq, hz, hp⟩ := seqView_eq_iff.1 hv
  obtain ⟨bs', hport'⟩ : ∃ bs', s'.busPort = o :: bs' := by
    rw [hport, List.head?_cons] at hb
    exact List.head?_eq_some_iff.1 hb.symm
  obtain ⟨u', hu', hseq⟩ : ∃ u', seqBusAnswer a s' = some u' ∧ u'.seq = u.seq := by
    have hsome := seqBusAnswer_seq_congr a hq hp
    rw [hu, Option.map_some] at hsome
    exact Option.map_eq_some_iff.1 hsome.symm
  obtain ⟨-, h6, h7⟩ := busy_of_seqBusAnswer hu'
  rw [busTurn_of hport' h6 h7 (hp ▸ hz ▸ ha) hu'] at h'
  cases h'
  exact ⟨hseq, by rw [hp, hq, hz], by rw [hport', List.tail_cons]⟩

theorem busTurn_frame (h : busTurn s = .next t) :
    t.params = s.params ∧ t.cmdPort = s.cmdPort ∧ t.timerPort = s.timerPort ∧ t.busOwed = s.busOwed ∧
      t.timerOwed = s.timerOwed := by
  rcases busTurn_cases h with rfl | ⟨o, bs, a, u, -, -, hu, rfl⟩
  · simp
  · have := seqBusAnswer_frame hu
    simp_all

theorem busTurn_congr (hv : seqView s = seqView s') (hb : s.busPort.head? = s'.busPort.head?)
    (h : busTurn s = .next t) (h' : busTurn s' = .next t') : SameEffect s t s' t' := by
  obtain ⟨hq, hz, hp⟩ := seqView_eq_iff.1 hv
  obtain ⟨hp₁, hc₁, ht₁, ho₁⟩ := busTurn_frame h
  obtain ⟨hp₂, hc₂, ht₂, ho₂⟩ := busTurn_frame h'
  suffices hmoved : t.seq = t'.seq ∧ t.sensor = t'.sensor ∧ (s.busPort = s'.busPort → t.busPort = t'.busPort) by
    refine ⟨seqView_eq_iff.2 ⟨hmoved.1, hmoved.2.1, by rw [hp₁, hp₂, hp]⟩, fun hports => ?_⟩
    obtain ⟨hc, hb, ht, ho⟩ := seqPorts_eq_iff.1 hports
    exact seqPorts_eq_iff.2 ⟨by rw [hc₁, hc₂, hc], hmoved.2.2 hb, by rw [ht₁, ht₂, ht], by rw [ho₁.1, ho₂.1, ho.1],
      by rw [ho₁.2, ho₂.2, ho.2]⟩
  rcases busTurn_cases h with rfl | ⟨o, bs, a, u, hport, ha, hu, rfl⟩
  · rcases busTurn_cases h' with rfl | ⟨o, bs, a, u, hport, ha, hu, rfl⟩
    · exact ⟨hq, hz, id⟩
    · obtain ⟨hseq, hsensor, hrest⟩ := busTurn_follows hv.symm hb.symm hport ha hu h
      exact ⟨hseq, hsensor, fun hsame => by rw [hrest, hsame, hport, List.tail_cons]⟩
  · obtain ⟨hseq, hsensor, hrest⟩ := busTurn_follows hv hb hport ha hu h'
    exact ⟨hseq.symm, hsensor.symm, fun hsame => by rw [hrest, ← hsame, hport, List.tail_cons]⟩

/-! ### Answers of TIMER -/

theorem seqDelayDone_seq_congr (hq : s.seq = s'.seq) (hp : s.params = s'.params) :
    (seqDelayDone s).map State.seq = (seqDelayDone s').map State.seq := by
  simp only [seqDelayDone, hq]
  cases s'.seq.phase with
  | settle =>
    simp only [afterSettle, hq]
    cases s'.seq.op <;> simp [hq, hp]
  | _ => simp [hq, hp]

theorem timerTurn_follows {n : Nat} (hv : seqView s = seqView s') (hn : (s.timerPort != 0) = (s'.timerPort != 0))
    (hport : s.timerPort = n + 1) (hu : seqDelayDone s = some u) (h' : timerTurn s' = .next t') :
    t'.seq = u.seq ∧ t'.timerPort = s'.timerPort - 1 := by
  obtain ⟨hq, -, hp⟩ := seqView_eq_iff.1 hv
  obtain ⟨n', hport'⟩ : ∃ n', s'.timerPort = n' + 1 :=
    Nat.exists_eq_succ_of_ne_zero (by simpa [hport, bne_iff_ne] using hn.symm)
  obtain ⟨u', hu', hseq⟩ : ∃ u', seqDelayDone s' = some u' ∧ u'.seq = u.seq := by
    have hsome := seqDelayDone_seq_congr hq hp
    rw [hu, Option.map_some] at hsome
    exact Option.map_eq_some_iff.1 hsome.symm
  obtain ⟨-, h6, h7⟩ := busy_of_seqDelayDone hu'
  rw [timerTurn_of hport' h6 h7 hu'] at h'
  cases h'
  exact ⟨hseq, by simp [hport']⟩

theorem timerTurn_frame (h : timerTurn s = .next t) :
    t.params = s.params ∧ t.sensor = s.sensor ∧ t.cmdPort = s.cmdPort ∧ t.busPort = s.busPort ∧ t.busOwed = s.busOwed ∧
      t.timerOwed = s.timerOwed := by
  rcases timerTurn_cases h with rfl | ⟨n, u, -, hu, rfl⟩
  · simp
  · have := seqDelayDone_frame hu
    simp_all

theorem timerTurn_congr (hv : seqView s = seqView s') (hn : (s.timerPort != 0) = (s'.timerPort != 0))
    (h : timerTurn s = .next t) (h' : timerTurn s' = .next t') : SameEffect s t s' t' := by
  obtain ⟨hq, hz, hp⟩ := seqView_eq_iff.1 hv
  obtain ⟨hp₁, hz₁, hc₁, hb₁, ho₁⟩ := timerTurn_frame h
  obtain ⟨hp₂, hz₂, hc₂, hb₂, ho₂⟩ := timerTurn_frame h'
  suffices hmoved : t.seq = t'.seq ∧ (s.timerPort = s'.timerPort → t.timerPort = t'.timerPort) by
    refine ⟨seqView_eq_iff.2 ⟨hmoved.1, by rw [hz₁, hz₂, hz], by rw [hp₁, hp₂, hp]⟩, fun hports => ?_⟩
    obtain ⟨hc, hb, ht, ho⟩ := seqPorts_eq_iff.1 hports
    exact seqPorts_eq_iff.2 ⟨by rw [hc₁, hc₂, hc], by rw [hb₁, hb₂, hb], hmoved.2 ht, by rw [ho₁.1, ho₂.1, ho.1],
      by rw [ho₁.2, ho₂.2, ho.2]⟩
  rcases timerTurn_cases h with rfl | ⟨n, u, hport, hu, rfl⟩
  · rcases timerTurn_cases h' with rfl | ⟨n, u, hport, hu, rfl⟩
    · exact ⟨hq, id⟩
    · obtain ⟨hseq, hrest⟩ := timerTurn_follows hv.symm hn.symm hport hu h
      exact ⟨hseq, fun hsame => by rw [hrest, hsame, hport, Nat.add_sub_cancel]⟩
  · obtain ⟨hseq, hrest⟩ := timerTurn_follows hv hn hport hu h'
    exact ⟨hseq.symm, fun hsame => by rw [hrest, ← hsame, hport, Nat.add_sub_cancel]⟩

/-! ### Reset, and every turn -/

theorem forget_ports_congr (hq : s.seq = s'.seq) (hports : seqPorts s = seqPorts s') :
    seqPorts (forget s) = seqPorts (forget s') := by
  obtain ⟨hc, hb, ht, hbo, hto⟩ := seqPorts_eq_iff.1 hports
  cases hpend : s.seq.pending with
  | none => rwa [forget_of_none hpend, forget_of_none (hq ▸ hpend)]
  | some r =>
    have hpend' : s'.seq.pending = some r := hq ▸ hpend
    cases r with
    | delay n =>
      rw [forget_of_delay hpend, forget_of_delay hpend', seqPorts_eq_iff]
      simp [hc, hb, ht, hbo, hto]
    | busTx _ _ _ | busRx _ _ _ =>
      rw [forget_of_bus hpend (by simp), forget_of_bus hpend' (by simp), seqPorts_eq_iff]
      simp [hc, hb, ht, hbo, hto]

theorem resetBlock_ports_congr (ptr : Byte) (standby answered : Bool) (hq : s.seq = s'.seq)
    (hports : seqPorts s = seqPorts s') :
    seqPorts (resetBlock ptr standby answered s) = seqPorts (resetBlock ptr standby answered s') := by
  cases answered with
  | false => exact hports
  | true => exact forget_ports_congr hq hports

theorem resetBlock_view_congr (ptr : Byte) (standby answered answered' : Bool) (hv : seqView s = seqView s') :
    seqView (resetBlock ptr standby answered s) = seqView (resetBlock ptr standby answered' s') := by
  obtain ⟨-, hz, hp⟩ := seqView_eq_iff.1 hv
  exact seqView_eq_iff.2 ⟨rfl, by rw [resetBlock_sensor, resetBlock_sensor, hz], by rw [resetBlock_params, resetBlock_params, hp]⟩

/-- Turns that find the same do the same to SEQ and the sensor. -/
theorem turnStep_view_congr {tn tn' : Turn} (hne : tn.isEvent = false) (hin : inputOf s tn = inputOf s' tn')
    (hv : seqView s = seqView s') (h : turnStep tn s = .next t) (h' : turnStep tn' s' = .next t') :
    seqView t = seqView t' := by
  cases tn with
  | event io => simp at hne
  | offer =>
    cases tn' <;> simp only [inputOf, reduceCtorEq, Input.offer.injEq] at hin
    exact (offerTurn_congr hv hin h h').1
  | bus =>
    cases tn' <;> simp only [inputOf, reduceCtorEq, Input.bus.injEq] at hin
    exact (busTurn_congr hv hin h h').1
  | timer =>
    cases tn' <;> simp only [inputOf, reduceCtorEq, Input.timer.injEq] at hin
    exact (timerTurn_congr hv hin h h').1
  | sensor temp rdy =>
    cases tn' <;> simp only [inputOf, reduceCtorEq, Input.sensor.injEq] at hin
    obtain ⟨rfl, rfl⟩ := hin
    cases h
    cases h'
    obtain ⟨hq, hz, hp⟩ := seqView_eq_iff.1 hv
    exact seqView_eq_iff.2 ⟨hq, by simp only [hz], hp⟩
  | reset ptr standby answered =>
    cases tn' <;> simp only [inputOf, reduceCtorEq, Input.reset.injEq] at hin
    obtain ⟨rfl, rfl⟩ := hin
    cases h
    cases h'
    exact resetBlock_view_congr _ _ _ _ hv

/-- The same turn does the same to equal ports. -/
theorem turnStep_ports_congr {tn : Turn} (hne : tn.isEvent = false) (hv : seqView s = seqView s')
    (hports : seqPorts s = seqPorts s') (h : turnStep tn s = .next t) (h' : turnStep tn s' = .next t') :
    seqPorts t = seqPorts t' := by
  obtain ⟨hc, hb, ht, -⟩ := seqPorts_eq_iff.1 hports
  cases tn with
  | event io => simp at hne
  | offer => exact (offerTurn_congr hv (by rw [hc]) h h').2 hports
  | bus => exact (busTurn_congr hv (by rw [hb]) h h').2 hports
  | timer => exact (timerTurn_congr hv (by rw [ht]) h h').2 hports
  | sensor temp rdy =>
    cases h
    cases h'
    exact hports
  | reset ptr standby answered =>
    cases h
    cases h'
    exact resetBlock_ports_congr _ _ _ (seqView_eq_iff.1 hv).1 hports

/-! ### Runs -/

/-- A step that is DMUX's, or the agents' own, leaves SEQ and the sensor alone; DMUX's leaves their ports alone too. -/
theorem step_seq_quiet (hev : ∀ tn ts, s.turns = tn :: ts → tn.isEvent = true) (h : step s = .next t) :
    seqView t = seqView s ∧ (s.turns = [] ∧ t = replenish s ∨ seqPorts t = seqPorts s) := by
  cases ht : s.turns with
  | nil =>
    rw [step_of_noTurn ht] at h
    cases h
    exact ⟨seqView_eq_iff.2 ⟨replenish_seq s, replenish_sensor s, replenish_params s⟩, .inl ⟨rfl, rfl⟩⟩
  | cons tn ts =>
    have htn := hev tn ts ht
    cases tn <;> simp only [Turn.isEvent, Bool.false_eq_true] at htn
    obtain ⟨hq, hp, hz, hc, hb, htm, -⟩ := step_event_frame ht h
    exact ⟨seqView_eq_iff.2 ⟨hq, hz, hp⟩, .inr (seqPorts_eq_iff.2 ⟨hc, hb, htm, step_owed ht rfl h⟩)⟩

/-- SEQ and the sensor, where they find the same. -/
theorem seqView_of_inputs {n m : Nat} (h : Runs n s t) (h' : Runs m s' t')
    (hl : (inputs n s).filter (fun x => !x.isEvent) = (inputs m s').filter (fun x => !x.isEvent))
    (hv : seqView s = seqView s') : seqView t = seqView t' := by
  refine runs_agree (lab := inputLabel fun x => !x.isEvent) (I := fun _ _ => True) (fun _ _ _ _ _ => trivial)
    (fun n s t _ hnone h => ?_) ?_ trivial trivial h h' (by rw [labels_inputLabel, labels_inputLabel, hl]) hv
  · refine (step_seq_quiet (fun tn ts ht => ?_) h).1
    simpa using not_of_inputLabel_none hnone ht
  · intro n m s t s' t' x _ _ hx hx' h h' hv
    obtain ⟨tn, ts, ht, rfl, hne⟩ := turns_of_inputLabel hx
    obtain ⟨tn', ts', ht', heq, -⟩ := turns_of_inputLabel hx'
    rw [step_of_turn ht] at h
    rw [step_of_turn ht'] at h'
    have hin : inputOf { s with turns := ts } tn = inputOf { s' with turns := ts' } tn' := by
      cases tn <;> cases tn' <;> exact heq.symm
    exact turnStep_view_congr (s := { s with turns := ts }) (s' := { s' with turns := ts' }) (by simpa using hne) hin hv h h'

/-- SEQ, the sensor and their ports, where the same stands in the ports and the same turns come. -/
theorem seqView_of_turns {n m : Nat} (ha : NoArrival n s) (ha' : NoArrival m s') (h : Runs n s t) (h' : Runs m s' t')
    (hl : (s.turns.take n).filter (fun tn => !tn.isEvent) = (s'.turns.take m).filter (fun tn => !tn.isEvent))
    (hv : (seqView s, seqPorts s) = (seqView s', seqPorts s')) : (seqView t, seqPorts t) = (seqView t', seqPorts t') := by
  refine runs_agree (lab := turnLabel fun tn => !tn.isEvent) (view := fun s => (seqView s, seqPorts s)) (I := NoArrival)
    (fun n s t ha h => (noArrival_step ha h).1) (fun n s t ha hnone h => ?_) ?_ ha ha' h h'
    (by rw [labels_turnLabel _ ha h, labels_turnLabel _ ha' h', hl]) hv
  · obtain ⟨hview, hports⟩ := step_seq_quiet (fun tn ts ht => by simpa using not_of_turnLabel_none hnone ht) h
    have hports : seqPorts t = seqPorts s := by
      rcases hports with ⟨hnil, -⟩ | hports
      · rw [(noArrival_step ha h).2.2 hnil]
      · exact hports
    exact Prod.ext hview hports
  · intro n m s t s' t' tn _ _ hx hx' h h' hv
    obtain ⟨⟨ts, ht⟩, hne⟩ := turns_of_turnLabel hx
    obtain ⟨⟨ts', ht'⟩, -⟩ := turns_of_turnLabel hx'
    obtain ⟨hview, hports⟩ := Prod.mk.inj hv
    obtain ⟨hc, hb, htm, -⟩ := seqPorts_eq_iff.1 hports
    rw [step_of_turn ht] at h
    rw [step_of_turn ht'] at h'
    have hne : tn.isEvent = false := by simpa using hne
    have hin : inputOf { s with turns := ts } tn = inputOf { s' with turns := ts' } tn := by
      cases tn <;> simp_all [inputOf]
    exact Prod.ext (turnStep_view_congr (s := { s with turns := ts }) (s' := { s' with turns := ts' }) hne hin hview h h')
      (turnStep_ports_congr (s := { s with turns := ts }) (s' := { s' with turns := ts' }) hne hview hports h h')

/-- Settles O53: the two runs agree on SEQ, the sensor and the parameters, and in the second case on SEQ's ports too. -/
theorem seqIndependentOfDmux : Obligations.SeqIndependentOfDmux := by
  intro n m s s' t t' hq hz hp h h'
  have hv : seqView s = seqView s' := seqView_eq_iff.2 ⟨hq, hz, hp⟩
  refine ⟨fun hl => ?_, fun hc hb ht hbo hto ha ha' hl => ?_⟩
  · obtain ⟨hq, hz, -⟩ := seqView_eq_iff.1 (seqView_of_inputs h h' hl hv)
    exact ⟨hq, hz⟩
  · have hports : seqPorts s = seqPorts s' := seqPorts_eq_iff.2 ⟨hc, hb, ht, hbo, hto⟩
    obtain ⟨hq, hz, -⟩ := seqView_eq_iff.1 (Prod.mk.inj (seqView_of_turns ha ha' h h' hl (by rw [hv, hports]))).1
    exact ⟨hq, hz⟩

end Sys2Proof.Machine
end

section
/-! SUPPORT. Whole commands (40_sensor_sequencer.md rules R120 to R124). `waitingState` is a command in progress with every field
written out; each row of rule R116 that goes on is a step from one such state to the next, the poll loop an induction over the
not-ready bytes, and each row that ends the command a step to `endedState`. -/

namespace Sys2Proof.Machine

variable {s t : State}

/-! ### The answers that lead on, one lemma per row of rule R116 -/

/-- The commands whose frame is followed by the settle delay. -/
def Settles (op : Op) : Prop := op = .standby ∨ op = .wakeup ∨ op = .wakeupAndRead

theorem seqBusAnswer_settle (hp : s.seq.phase = .tx) (hop : Settles s.seq.op) :
    seqBusAnswer .txOk s = some (delay 10 .settle s) := by
  rcases hop with hop | hop | hop <;> simp only [seqBusAnswer, hp, afterTx, hop] <;> rfl

theorem seqBusAnswer_select (hp : s.seq.phase = .tx) (hop : s.seq.op = .readAfterConfig) :
    seqBusAnswer .txOk s = some (busRx .rxData s) := by
  simp only [seqBusAnswer, hp, afterTx, hop]

theorem seqBusAnswer_ready {b : Byte} (hp : s.seq.phase = .rxStatus) (hop : s.seq.op = .wakeupAndRead)
    (hb : isReadyByte b = true) : seqBusAnswer (.rxOk b) s = some (busRx .rxData s) := by
  simp only [seqBusAnswer, hp, afterStatus, hop, hb, if_true]

theorem seqBusAnswer_notReady {b : Byte} (hp : s.seq.phase = .rxStatus) (hop : s.seq.op = .wakeupAndRead)
    (hb : isReadyByte b = false) : seqBusAnswer (.rxOk b) s = some (pollNotReady s) := by
  simp only [seqBusAnswer, hp, afterStatus, hop, hb, Bool.false_eq_true, if_false]

theorem seqDelayDone_mode (hp : s.seq.phase = .settle) (hop : s.seq.op = .standby ∨ s.seq.op = .wakeup) :
    seqDelayDone s = some (complete .ok false 0x00 s) := by
  rcases hop with hop | hop <;> simp only [seqDelayDone, hp, afterSettle, hop]

theorem seqDelayDone_firstPoll (hp : s.seq.phase = .settle) (hop : s.seq.op = .wakeupAndRead) :
    seqDelayDone s = some (busRx .rxStatus s) := by
  simp only [seqDelayDone, hp, afterSettle, hop]

theorem seqDelayDone_nextPoll (hp : s.seq.phase = .pollWait) : seqDelayDone s = some (busRx .rxStatus s) := by
  simp only [seqDelayDone, hp]

theorem pollNotReady_waits (h : pollLimitMet s.params (s.seq.polls + 1) = false) :
    pollNotReady s = delay 10 .pollWait { s with seq := { s.seq with polls := s.seq.polls + 1 } } := by
  rw [pollNotReady, h, if_neg Bool.false_ne_true]
  rfl

theorem pollNotReady_ends (h : pollLimitMet s.params (s.seq.polls + 1) = true) :
    pollNotReady s = complete .pollLimit false 0x00 { s with seq := { s.seq with polls := s.seq.polls + 1 } } := by
  rw [pollNotReady, if_pos h]

theorem isReadyByte_eq_false {b : Byte} (h : (b &&& 0x40) = 0) : isReadyByte b = false := by
  rw [← Bool.not_eq_true, isReadyByte_iff, h]
  decide

/-! ### A command in progress -/

/-- `s` inside a command begun from it: SEQ waits in `phase` for the answer to `r`, the sensor and SEQ's ports as given, after the
requests listed (newest first). -/
def waitingState (s : State) (phase : Phase) (op : Op) (polls : Nat) (r : Request) (sensor : Sensor)
    (cmdPort : List CmdWord) (busPort : List BusOutcome) (timerPort : Nat) (turns : List Turn) (requests : List Request) :
    State :=
  { s with
    seq := { phase := phase, op := op, polls := polls, rsp := s.seq.rsp, pending := some r }
    sensor := sensor, cmdPort := cmdPort, busPort := busPort, timerPort := timerPort, turns := turns
    out := requests.map .request ++ s.out }

variable {op : Op} {ph : Phase} {k n : Nat} {r : Request} {z : Sensor} {cs ws : List CmdWord} {o : BusOutcome} {a : BusAnswer}
  {bs : List BusOutcome} {ts : List Turn} {rs : List Request} {w : CmdWord} {b : Byte} {frame : List Byte}

/-- An offer that is accepted. -/
theorem step_accepted (ht : s.turns = .offer :: ts) (hc : s.cmdPort = w :: ws)
    (h : exec (decodeCmd w) { s with turns := ts } = .next (acceptedState op ph r { s with turns := ts })) :
    step s = .next (waitingState s ph op 0 r s.sensor ws s.busPort s.timerPort ts [r]) := by
  rw [step_offer ht hc, h]
  simp only [acceptedState, waitingState, hc, List.tail_cons, List.map_cons, List.map_nil, List.singleton_append]

/-- The sensor after a mode frame: rules R62 and R64 of 20_memory.md. -/
theorem transmitted_cfgReg (p : Params) (v : Byte) (z : Sensor) :
    z.transmitted p [p.cfgReg, v] = { z with ptr := p.cfgReg, standby := v.getLsbD 7 } := by
  simp only [Sensor.transmitted, if_true]

/-- A step on an answer of BUS that the command in progress takes. -/
theorem step_waiting_bus {u : State} (hu : seqBusAnswer a (waitingState s ph op k r z cs (o :: bs) n ts rs) = some u)
    (ha : busAnswer s.params z o = some a) :
    step (waitingState s ph op k r z cs (o :: bs) n (.bus :: ts) rs) =
      .next { u with busPort := bs, sensor := sensorAfter s.params (some r) o z } := by
  obtain ⟨-, h6, h7⟩ := busy_of_seqBusAnswer hu
  exact step_bus (s := waitingState s ph op k r z cs (o :: bs) n (.bus :: ts) rs) rfl rfl h6 h7 ha hu

/-- A step on an answer of TIMER that the command in progress takes. -/
theorem step_waiting_timer {u : State} (hu : seqDelayDone (waitingState s ph op k r z cs bs (n + 1) ts rs) = some u) :
    step (waitingState s ph op k r z cs bs (n + 1) (.timer :: ts) rs) = .next { u with timerPort := n } := by
  obtain ⟨-, h6, h7⟩ := busy_of_seqDelayDone hu
  exact step_timer (s := waitingState s ph op k r z cs bs (n + 1) (.timer :: ts) rs) rfl rfl h6 h7 hu

theorem step_settle (hop : Settles op) :
    step (waitingState s .tx op k (txRequest s.params frame) z cs (.txOk :: bs) n (.bus :: ts) rs) =
      .next (waitingState s .settle op k (.delay 10) (z.transmitted s.params frame) cs bs n ts (.delay 10 :: rs)) :=
  (step_waiting_bus (seqBusAnswer_settle rfl hop) rfl).trans rfl

theorem step_select :
    step (waitingState s .tx .readAfterConfig k (txRequest s.params [0x00]) z cs (.txOk :: bs) n (.bus :: ts) rs) =
      .next (waitingState s .rxData .readAfterConfig k (rxRequest s.params) { z with ptr := 0x00 } cs bs n ts
        (rxRequest s.params :: rs)) :=
  (step_waiting_bus (seqBusAnswer_select rfl rfl) rfl).trans rfl

theorem step_firstPoll :
    step (waitingState s .settle .wakeupAndRead k (.delay 10) z cs bs (n + 1) (.timer :: ts) rs) =
      .next (waitingState s .rxStatus .wakeupAndRead k (rxRequest s.params) z cs bs n ts (rxRequest s.params :: rs)) :=
  (step_waiting_timer (seqDelayDone_firstPoll rfl rfl)).trans rfl

theorem step_nextPoll :
    step (waitingState s .pollWait op k (.delay 10) z cs bs (n + 1) (.timer :: ts) rs) =
      .next (waitingState s .rxStatus op k (rxRequest s.params) z cs bs n ts (rxRequest s.params :: rs)) :=
  (step_waiting_timer (seqDelayDone_nextPoll rfl)).trans rfl

theorem step_ready (hb : isReadyByte b = true) :
    step (waitingState s .rxStatus .wakeupAndRead k (rxRequest s.params) z cs (.rxOk b :: bs) n (.bus :: ts) rs) =
      .next (waitingState s .rxData .wakeupAndRead k (rxRequest s.params) z cs bs n ts (rxRequest s.params :: rs)) :=
  (step_waiting_bus (seqBusAnswer_ready rfl rfl hb) rfl).trans rfl

theorem step_notReady (hb : isReadyByte b = false) (hlimit : pollLimitMet s.params (k + 1) = false) :
    step (waitingState s .rxStatus .wakeupAndRead k (rxRequest s.params) z cs (.rxOk b :: bs) n (.bus :: ts) rs) =
      .next (waitingState s .pollWait .wakeupAndRead (k + 1) (.delay 10) z cs bs n ts (.delay 10 :: rs)) :=
  (step_waiting_bus ((seqBusAnswer_notReady rfl rfl hb).trans (congrArg some (pollNotReady_waits hlimit))) rfl).trans rfl

theorem step_pollLimit (hb : isReadyByte b = false) (hlimit : pollLimitMet s.params (k + 1) = true) :
    step (waitingState s .rxStatus .wakeupAndRead k (rxRequest s.params) z cs (.rxOk b :: bs) n (.bus :: ts) rs) =
      .next (endedState s .wakeupAndRead (k + 1) ⟨.pollLimit, false, 0x00⟩ z cs bs n ts rs) :=
  (step_waiting_bus ((seqBusAnswer_notReady rfl rfl hb).trans (congrArg some (pollNotReady_ends hlimit))) rfl).trans rfl

theorem step_mode (hop : op = .standby ∨ op = .wakeup) :
    step (waitingState s .settle op k (.delay 10) z cs bs (n + 1) (.timer :: ts) rs) =
      .next (endedState s op k ⟨.ok, false, 0x00⟩ z cs bs n ts rs) :=
  (step_waiting_timer (seqDelayDone_mode rfl hop)).trans rfl

/-- A data receive that is done ends the command with its byte; the sensor stays as it is. -/
theorem step_data (ha : busAnswer s.params z o = some (.rxOk b)) :
    step (waitingState s .rxData op k (rxRequest s.params) z cs (o :: bs) n (.bus :: ts) rs) =
      .next (endedState s op k ⟨.ok, false, b⟩ z cs bs n ts rs) := by
  rw [step_waiting_bus (seqBusAnswer_data b rfl) ha, sensorAfter_rxRequest]
  rfl

theorem step_busFail (hp : ph = .tx ∨ ph = .rxStatus ∨ ph = .rxData) (ha : busAnswer s.params z o = some .busFail) :
    step (waitingState s ph op k r z cs (o :: bs) n (.bus :: ts) rs) =
      .next (endedState s op k ⟨.busError, false, 0x00⟩ (sensorAfter s.params (some r) o z) cs bs n ts rs) :=
  (step_waiting_bus (seqBusAnswer_busFail hp) ha).trans rfl

theorem step_busTimeout (hp : ph = .tx ∨ ph = .rxStatus ∨ ph = .rxData)
    (ha : busAnswer s.params z o = some .busTimeout) :
    step (waitingState s ph op k r z cs (o :: bs) n (.bus :: ts) rs) =
      .next (endedState s op k ⟨.timeout, false, 0x00⟩ (sensorAfter s.params (some r) o z) cs bs n ts rs) :=
  (step_waiting_bus (seqBusAnswer_busTimeout hp) ha).trans rfl

/-! ### The poll loop -/

theorem pollTurns_succ (k : Nat) : pollTurns (k + 1) = .bus :: .timer :: pollTurns k := rfl

/-- The rounds of the loop emit alike, so the first of them may stand behind the others. -/
theorem pollRequests_append (p : Params) (k : Nat) (rs : List Request) :
    pollRequests p k ++ rxRequest p :: .delay 10 :: rs = pollRequests p (k + 1) ++ rs := by
  induction k with
  | zero => rfl
  | succ k ih => exact congrArg (fun l => rxRequest p :: Request.delay 10 :: l) ih

/-- Rule R123: as many not-ready polls as there are bytes, each with its poll delay, while the count stays below the limit. -/
theorem runs_polls {notReady : List Byte} (hb : ∀ b ∈ notReady, (b &&& 0x40) = 0)
    (hlimit : ∀ m, s.params.maxPolls = some m → notReady = [] ∨ k + notReady.length < m) :
    Runs (2 * notReady.length)
      (waitingState s .rxStatus .wakeupAndRead k (rxRequest s.params) z cs (notReady.map .rxOk ++ bs)
        (notReady.length + n) (pollTurns notReady.length ++ ts) rs)
      (waitingState s .rxStatus .wakeupAndRead (k + notReady.length) (rxRequest s.params) z cs bs n ts
        (pollRequests s.params notReady.length ++ rs)) := by
  induction notReady generalizing k rs with
  | nil =>
    rw [List.length_nil, Nat.zero_add]
    exact runs_zero.2 rfl
  | cons b notReady ih =>
    obtain ⟨hb, hrest⟩ := List.forall_mem_cons.1 hb
    have hbelow : pollLimitMet s.params (k + 1) = false := by
      cases hm : s.params.maxPolls with
      | none => exact pollLimitMet_of_none hm _
      | some m =>
        have hlt := (hlimit m hm).resolve_left (List.cons_ne_nil _ _)
        rw [List.length_cons] at hlt
        rw [pollLimitMet_of_some hm, decide_eq_false_iff_not]
        omega
    have hloop := ih (k := k + 1) (rs := rxRequest s.params :: .delay 10 :: rs) hrest fun m hm => by
      have hlt := (hlimit m hm).resolve_left (List.cons_ne_nil _ _)
      rw [List.length_cons] at hlt
      omega
    rw [pollRequests_append, Nat.add_assoc, Nat.add_comm 1] at hloop
    rw [List.length_cons, pollTurns_succ, Nat.mul_succ, Nat.add_right_comm]
    exact runs_cons (step_notReady (isReadyByte_eq_false hb) hbelow) (runs_cons step_nextPoll hloop)

/-! ### The commands -/

theorem settled_sensor (p : Params) (z : Sensor) :
    z.transmitted p [p.cfgReg, 0x80] = { z with ptr := p.cfgReg, standby := true } ∧
      z.transmitted p [p.cfgReg, 0x00] = { z with ptr := p.cfgReg, standby := false } :=
  ⟨transmitted_cfgReg p 0x80 z, transmitted_cfgReg p 0x00 z⟩

/-- Settles O30: the frame, the settle delay and the end, with the sensor the frame leaves. -/
theorem modeCommandsRun : Obligations.ModeCommandsRun := by
  intro s ws bs n ts hidle ht hb hn
  obtain ⟨hstandby, hwakeup, -⟩ := transmittingCommandsAccepted { s with turns := .bus :: .timer :: ts } hidle
  obtain ⟨hsleep, hwake⟩ := settled_sensor s.params s.sensor
  refine ⟨fun hc => ?_, fun hc => ?_⟩
  · refine runs_cons (step_accepted ht hc hstandby) ?_
    rw [hb, hn, ← hsleep]
    exact runs_cons (step_settle (.inl rfl)) (runs_cons (step_mode (.inl rfl)) (runs_zero.2 rfl))
  · refine runs_cons (step_accepted ht hc hwakeup) ?_
    rw [hb, hn, ← hwake]
    exact runs_cons (step_settle (.inr (.inl rfl))) (runs_cons (step_mode (.inr rfl)) (runs_zero.2 rfl))

/-- Settles O33: the select, which a failure ends, and the receive. -/
theorem readAfterConfigRun : Obligations.ReadAfterConfigRun := by
  intro s ws o bs ts hidle hc
  have haccept (ts : List Turn) := (transmittingCommandsAccepted { s with turns := ts } hidle).2.2.2
  refine ⟨fun ht hb => ?_, fun ht hb => ?_⟩
  · have hoffer := step_accepted ht hc (haccept _)
    rw [hb] at hoffer
    exact ⟨fun ha => runs_cons hoffer (runs_cons (step_busFail (.inl rfl) ha) (runs_zero.2 rfl)),
      fun ha => runs_cons hoffer (runs_cons (step_busTimeout (.inl rfl) ha) (runs_zero.2 rfl))⟩
  · have hoffer := step_accepted ht hc (haccept _)
    rw [hb] at hoffer
    refine ⟨fun b ha => ?_, fun ha => ?_, fun ha => ?_⟩ <;>
      refine runs_cons hoffer (runs_cons step_select (runs_cons ?_ (runs_zero.2 rfl)))
    · exact step_data ha
    · exact (step_busFail (.inr (.inr rfl)) ha).trans (by rw [sensorAfter_rxRequest])
    · exact (step_busTimeout (.inr (.inr rfl)) ha).trans (by rw [sensorAfter_rxRequest])

/-- WAKEUP_AND_READ up to its first status receive. -/
theorem runs_firstPoll (hidle : s.seq.phase = .idle) (hc : s.cmdPort = 0b100 :: ws)
    (ht : s.turns = .offer :: .bus :: .timer :: ts) (hb : s.busPort = .txOk :: bs) (hn : s.timerPort = n + 1) :
    Runs 3 s (waitingState s .rxStatus .wakeupAndRead 0 (rxRequest s.params)
      { s.sensor with ptr := s.params.cfgReg, standby := false } ws bs n ts
      [rxRequest s.params, .delay 10, txRequest s.params [s.params.cfgReg, 0x00]]) := by
  have haccept := (transmittingCommandsAccepted { s with turns := .bus :: .timer :: ts } hidle).2.2.1
  refine runs_cons (step_accepted ht hc haccept) ?_
  rw [hb, hn, ← (settled_sensor s.params s.sensor).2]
  exact runs_cons (step_settle (.inr (.inr rfl))) (runs_cons step_firstPoll (runs_zero.2 rfl))

/-- WAKEUP_AND_READ with not-ready polls below the limit, a ready one, and a receive that is done, whichever outcome of BUS gives
its byte. -/
theorem runs_wakeupAndRead {notReady : List Byte} {ready : Byte} (hidle : s.seq.phase = .idle) (hc : s.cmdPort = 0b100 :: ws)
    (hnot : ∀ b ∈ notReady, (b &&& 0x40) = 0) (hready : (ready &&& 0x40) ≠ 0)
    (hlimit : ∀ m, s.params.maxPolls = some m → notReady = [] ∨ notReady.length < m)
    (ht : s.turns = .offer :: .bus :: .timer :: (pollTurns notReady.length ++ .bus :: .bus :: ts))
    (hb : s.busPort = .txOk :: (notReady.map .rxOk ++ .rxOk ready :: o :: bs)) (hn : s.timerPort = notReady.length + 1 + n)
    (ha : busAnswer s.params { s.sensor with ptr := s.params.cfgReg, standby := false } o = some (.rxOk b)) :
    Runs (2 * notReady.length + 5) s (endedState s .wakeupAndRead notReady.length ⟨.ok, false, b⟩
      { s.sensor with ptr := s.params.cfgReg, standby := false } ws bs n ts
      (rxRequest s.params :: (pollRequests s.params notReady.length ++
        [rxRequest s.params, .delay 10, txRequest s.params [s.params.cfgReg, 0x00]]))) := by
  have hwake := runs_firstPoll (n := notReady.length + n) hidle hc ht hb (by omega)
  have hloop := runs_polls (z := { s.sensor with ptr := s.params.cfgReg, standby := false }) (cs := ws) (n := n)
    (bs := .rxOk ready :: o :: bs) (ts := .bus :: .bus :: ts)
    (rs := [rxRequest s.params, .delay 10, txRequest s.params [s.params.cfgReg, 0x00]]) (k := 0) hnot (by simpa using hlimit)
  rw [Nat.zero_add] at hloop
  rw [show 2 * notReady.length + 5 = 3 + 2 * notReady.length + 2 by omega]
  refine runs_trans (runs_trans hwake hloop) ?_
  exact runs_cons (step_ready ((isReadyByte_iff ready).2 hready)) (runs_cons (step_data ha) (runs_zero.2 rfl))

/-- Settles O34: the receive's byte is the one that BUS gives. -/
theorem wakeupAndReadRun : Obligations.WakeupAndReadRun := by
  intro s ws notReady r d bs n ts hidle hc hnot hready hlimit ht hb hn
  exact runs_wakeupAndRead hidle hc hnot hready (fun m hm => .inr (hlimit m hm)) ht hb hn rfl

/-- Settles O35: all polls but the last are rounds of the loop, and the last one meets the limit. -/
theorem pollLimitEndsWakeupAndRead : Obligations.PollLimitEndsWakeupAndRead := by
  intro s ws notReady bs n k ts hidle hc hmax hlen hnot ht hb hn
  rcases List.eq_nil_or_concat notReady with rfl | ⟨polls, b, rfl⟩
  · cases hlen
  obtain rfl : polls.length = k := by simpa using hlen
  rw [List.concat_eq_append] at hnot hb
  rw [List.map_append, List.append_assoc] at hb
  have hwake := runs_firstPoll (n := polls.length + n) hidle hc ht hb (by omega)
  have hloop := runs_polls (s := s) (z := { s.sensor with ptr := s.params.cfgReg, standby := false }) (cs := ws) (n := n)
    (bs := .rxOk b :: bs) (ts := .bus :: ts)
    (rs := [rxRequest s.params, .delay 10, txRequest s.params [s.params.cfgReg, 0x00]]) (k := 0) (notReady := polls)
    (fun b hb => hnot b (List.mem_append_left _ hb))
    (fun m hm => by cases hmax.symm.trans hm; exact .inr (by omega))
  rw [Nat.zero_add] at hloop
  have hlast : pollLimitMet s.params (polls.length + 1) = true := by
    rw [pollLimitMet_of_some hmax, decide_eq_true_eq]
  rw [show 2 * polls.length + 4 = 3 + 2 * polls.length + 1 by omega]
  refine runs_trans (runs_trans hwake hloop) ?_
  exact runs_cons (step_pollLimit (isReadyByte_eq_false (hnot b (by simp))) hlast) (runs_zero.2 rfl)

end Sys2Proof.Machine
end

section
/-! SUPPORT. What the reference sensor makes of the commands (20_memory.md rules R62 to R66; 70_reset_and_hazards.md rules R218,
R220): where its pointer stands, and so which register a read returns. -/

namespace Sys2Proof.Machine

variable {s t : State} {p : Params}

/-! ### The pointer -/

theorem phase_of_pendingOf_busTx {ph : Phase} {op : Op} {dev : Nat} {timeout : BusTimeout} {bytes : List Byte}
    (h : pendingOf p ph op = some (.busTx dev timeout bytes)) : ph = .tx ∧ frameOf p op = some bytes := by
  cases ph <;> simp only [pendingOf, reduceCtorEq, Option.some.injEq, Option.map_eq_some_iff] at h
  obtain ⟨bytes', hframe, heq⟩ := h
  cases heq
  exact ⟨rfl, hframe⟩

/-- A done transmit of a command's frame is taken. -/
theorem seqBusAnswer_txOk {bytes : List Byte} (hp : s.seq.phase = .tx) (hframe : frameOf s.params s.seq.op = some bytes) :
    ∃ u, seqBusAnswer .txOk s = some u := by
  rcases frameOf_cases hframe with ⟨-, hop⟩ | ⟨-, hop | hop⟩ | ⟨-, hop⟩
  · exact ⟨_, seqBusAnswer_settle hp (.inl hop)⟩
  · exact ⟨_, seqBusAnswer_settle hp (.inr (.inl hop))⟩
  · exact ⟨_, seqBusAnswer_settle hp (.inr (.inr hop))⟩
  · exact ⟨_, seqBusAnswer_select hp hop⟩

/-- Rule R62: the first byte of a frame sets the pointer. -/
theorem transmitted_ptr {op : Op} {r : Byte} {rest : List Byte} (h : frameOf p op = some (r :: rest)) (z : Sensor) :
    (z.transmitted p (r :: rest)).ptr = r := by
  rcases frameOf_cases h with ⟨hbytes, -⟩ | ⟨hbytes, -⟩ | ⟨hbytes, -⟩ <;> cases hbytes <;> rfl

/-- Settles O37: under the invariant a pending transmit is the op's frame, and its TxOk is taken; a receive leaves the sensor as it
is, taken or not. -/
theorem framesSetThePointer : Obligations.FramesSetThePointer := by
  intro s t ts hinv ht h
  refine ⟨fun dev timeout r rest bs hpend hport => ?_, fun dev timeout count hpend => ?_⟩
  · obtain ⟨hp, hframe⟩ := phase_of_pendingOf_busTx (hinv.seq.2.symm.trans hpend)
    obtain ⟨u, hu⟩ := seqBusAnswer_txOk (s := { s with turns := ts }) hp hframe
    rw [step_bus ht hport (by simp [hp]) (by simp [hp]) rfl hu, hpend] at h
    cases h
    exact transmitted_ptr hframe s.sensor
  · rw [step_of_turn ht] at h
    rcases busTurn_cases (s := { s with turns := ts }) h with rfl | ⟨o, bs, a, u, -, -, -, rfl⟩
    · rfl
    · show sensorAfter s.params s.seq.pending o s.sensor = s.sensor
      rw [hpend]
      cases o <;> rfl

/-! ### What a read returns -/

/-- Rule R65: with the pointer at the temperature register a read gives the temperature. -/
theorem read_temp (p : Params) (other : Byte) (z : Sensor) : ({ z with ptr := 0x00 } : Sensor).read p other = z.temp := rfl

/-- Rule R65: with the pointer at CFG_REG, which is another register, it gives the control byte. -/
theorem read_control (hcfg : p.cfgReg ≠ 0x00) (other : Byte) (standby : Bool) (z : Sensor) :
    ({ z with ptr := p.cfgReg, standby := standby } : Sensor).read p other =
      (if standby then 0x80 else 0x00) ||| (if z.rdy then 0x40 else 0x00) := by
  have htemp : ¬ ({ z with ptr := p.cfgReg, standby := standby } : Sensor).ptr = Config.tempReg := hcfg
  rw [Sensor.read, if_neg htemp, if_pos rfl]
  cases standby <;> cases z.rdy <;> rfl

/-- Settles O38: STANDBY leaves the pointer at CFG_REG, and READ_AFTER_TEMP reads there. -/
theorem bareReadAfterStandbyReadsControl : Obligations.BareReadAfterStandbyReadsControl := by
  intro s ws other bs n ts hcfg hidle hc ht hb hn
  have hstandby := (modeCommandsRun s (0b110 :: ws) (.rxSensor other :: bs) n (.offer :: .bus :: ts) hidle ht hb hn).1 hc
  obtain ⟨u, hu, hidle, hc, ht, hb, hparams, hsensor⟩ : ∃ u, Runs 3 s u ∧ u.seq.phase = .idle ∧ u.cmdPort = 0b110 :: ws ∧
      u.turns = .offer :: .bus :: ts ∧ u.busPort = .rxSensor other :: bs ∧ u.params = s.params ∧
      u.sensor = { s.sensor with ptr := s.params.cfgReg, standby := true } :=
    ⟨_, hstandby, rfl, rfl, rfl, rfl, rfl, rfl⟩
  have hread := (readAfterTempRun u ws (.rxSensor other) bs ts hidle hc ht hb).1 _ rfl
  refine ⟨_, runs_trans hu hread, ?_, rfl⟩
  show Rsp.mk .ok false (u.sensor.read u.params other) = _
  rw [hparams, hsensor, read_control hcfg]
  cases s.sensor.rdy <;> rfl

/-- Settles O39: READ_AFTER_CONFIG sets the pointer to the temperature register before it reads; WAKEUP_AND_READ reads at CFG_REG,
where its wake frame has left it. -/
theorem whichRegisterAReadReturns : Obligations.WhichRegisterAReadReturns := by
  intro s ws other r bs n ts hidle
  refine ⟨fun hc ht hb => ?_, fun hcfg hr hc ht hb hn => ?_⟩
  · have hread := ((readAfterConfigRun s ws (.rxSensor other) bs ts hidle hc).2 ht hb).1 _ rfl
    exact ⟨_, hread, congrArg (Rsp.mk .ok false) (read_temp s.params other s.sensor)⟩
  · have hread := runs_wakeupAndRead (notReady := []) hidle hc nofun hr
      (fun _ _ => .inl rfl) ht hb (hn.trans (Nat.add_comm _ _)) rfl
    refine ⟨_, hread, congrArg (Rsp.mk .ok false) ((read_control hcfg other false s.sensor).trans ?_)⟩
    cases s.sensor.rdy <;> rfl

end Sys2Proof.Machine
end

section
/-! SUPPORT. The poll loop that never ends (40_sensor_sequencer.md rule R117, 70_reset_and_hazards.md rule R224), and the answers of
forgotten requests (rule R210). -/

namespace Sys2Proof.Machine

variable {s t : State}

/-! ### A sensor that is never ready -/

/-- An outcome of BUS that gives a not-ready byte. -/
def NotReady (o : BusOutcome) : Prop := ∃ b, o = .rxOk b ∧ (b &&& 0x40) = 0

/-- An arrival that brings not-ready bytes only, and no reset. -/
def BringsNotReady (a : Arrival) : Prop := (∀ o ∈ a.outcomes, NotReady o) ∧ ∀ tn ∈ a.turns, tn.isReset = false

/-- A WAKEUP_AND_READ that polls without limit a sensor that is never ready, with no reset to come. -/
structure PollsForEver (s : State) : Prop where
  unbounded : s.params.maxPolls = none
  op : s.seq.op = .wakeupAndRead
  phase : s.seq.phase = .settle ∨ s.seq.phase = .rxStatus ∨ s.seq.phase = .pollWait
  answers : ∀ o ∈ s.busPort, NotReady o
  noReset : ∀ tn ∈ s.turns, tn.isReset = false
  supply : s.supply.All BringsNotReady

/-- What the loop keeps of SEQ, step by step. -/
def StaysInLoop (s t : State) : Prop :=
  t.seq.op = s.seq.op ∧ t.seq.rsp = s.seq.rsp ∧
    (t.seq.phase = .settle ∨ t.seq.phase = .rxStatus ∨ t.seq.phase = .pollWait)

theorem PollsForEver.stays (hs : PollsForEver s) (hseq : t.seq = s.seq) : StaysInLoop s t :=
  ⟨by rw [hseq], by rw [hseq], by rw [hseq]; exact hs.phase⟩

theorem PollsForEver.busy (hs : PollsForEver s) :
    s.seq.phase ≠ .idle ∧ s.seq.phase ≠ .code6 ∧ s.seq.phase ≠ .code7 := by
  rcases hs.phase with hp | hp | hp <;> simp [hp]

/-- BUS's answer, a not-ready byte, leads from the poll to the poll delay. -/
theorem staysInLoop_seqBusAnswer {b : Byte} (hs : PollsForEver s) (hb : (b &&& 0x40) = 0)
    (h : seqBusAnswer (.rxOk b) s = some t) : StaysInLoop s t := by
  have hp : s.seq.phase = .rxStatus := by
    rcases hs.phase with hp | hp | hp
    · simp [seqBusAnswer, hp] at h
    · exact hp
    · simp [seqBusAnswer, hp] at h
  rw [seqBusAnswer_notReady hp hs.op (isReadyByte_eq_false hb),
    pollNotReady_waits (pollLimitMet_of_none hs.unbounded _)] at h
  cases h
  exact ⟨rfl, rfl, .inr (.inr rfl)⟩

/-- TIMER's answer leads to the next poll. -/
theorem staysInLoop_seqDelayDone (hs : PollsForEver s) (h : seqDelayDone s = some t) : StaysInLoop s t := by
  rcases phase_of_seqDelayDone h with hp | hp
  · rw [seqDelayDone_firstPoll hp hs.op] at h
    cases h
    exact ⟨rfl, rfl, .inr (.inl rfl)⟩
  · rw [seqDelayDone_nextPoll hp] at h
    cases h
    exact ⟨rfl, rfl, .inr (.inl rfl)⟩

/-- Every turn but a reset leaves SEQ in the loop, and puts no other answer into BUS's port. -/
theorem PollsForEver.after_turn {tn : Turn} (hs : PollsForEver s) (hno : tn.isReset = false) (h : turnStep tn s = .next t) :
    StaysInLoop s t ∧ t.busPort <:+ s.busPort := by
  cases tn with
  | reset => simp at hno
  | sensor temp rdy =>
    cases h
    exact ⟨hs.stays rfl, List.suffix_rfl⟩
  | event io =>
    obtain ⟨d, outs, h', -⟩ := eventTurn_spec { s with ioFail := io }
    cases h'.symm.trans h
    exact ⟨hs.stays rfl, List.suffix_rfl⟩
  | offer =>
    refine ⟨?_, (seqUnit_answers (.inl rfl) h).1⟩
    rcases offerTurn_cases h with ⟨-, rfl⟩ | ⟨w, ws, -, h⟩
    · exact hs.stays rfl
    · rcases exec_command_cases (decodeCmd_isCommand w) h with rfl | ⟨hidle, -⟩
      · exact hs.stays rfl
      · exact absurd hidle hs.busy.1
  | bus =>
    refine ⟨?_, (seqUnit_answers (.inr (.inl rfl)) h).1⟩
    rcases busTurn_cases h with rfl | ⟨o, bs, a, u, hport, ha, hu, rfl⟩
    · exact hs.stays rfl
    · obtain ⟨b, rfl, hb⟩ := hs.answers o (by simp [hport])
      cases ha
      exact staysInLoop_seqBusAnswer (t := u) hs hb hu
  | timer =>
    refine ⟨?_, (seqUnit_answers (.inr (.inr rfl)) h).1⟩
    rcases timerTurn_cases h with rfl | ⟨n, u, -, hu, rfl⟩
    · exact hs.stays rfl
    · exact staysInLoop_seqDelayDone (t := u) hs hu

/-- The agents' own step brings not-ready bytes and turns that are no reset. -/
theorem PollsForEver.after_replenish (hs : PollsForEver s) : PollsForEver (replenish s) := by
  rcases replenish_cases hs.supply with hwait | ⟨a, supply, ⟨hbytes, hturns⟩, hall, harrive⟩
  · rwa [hwait]
  · rw [harrive]
    refine ⟨hs.unbounded, hs.op, hs.phase, fun o ho => ?_, fun tn htn => ?_, hall⟩
    · have ho : o ∈ s.busPort ++ a.outcomes := List.mem_of_mem_drop ho
      exact (List.mem_append.1 ho).elim (hs.answers o) (hbytes o)
    · exact (List.mem_append.1 htn).elim (hs.noReset tn) (hturns tn)

theorem PollsForEver.after_step (hs : PollsForEver s) (h : step s = .next t) : PollsForEver t ∧ StaysInLoop s t := by
  have h0 := h
  rcases step_cases h with ⟨-, h⟩ | ⟨tn, rest, ht, h⟩
  · cases h
    exact ⟨hs.after_replenish, hs.stays (replenish_seq s)⟩
  · have hrest : PollsForEver { s with turns := rest } :=
      ⟨hs.unbounded, hs.op, hs.phase, hs.answers, fun tn' h' => hs.noReset tn' (by simp [ht, h']), hs.supply⟩
    obtain ⟨hstays, hport⟩ := hrest.after_turn (hs.noReset tn (by simp [ht])) h
    obtain ⟨hturns, hsupply⟩ := step_turns ht h0
    refine ⟨⟨by rw [step_params h0]; exact hs.unbounded, hstays.1.trans hs.op, hstays.2.2,
      fun o ho => hs.answers o (hport.subset ho), ?_, by rw [hsupply]; exact hs.supply⟩, hstays⟩
    rw [hturns]
    exact hrest.noReset

theorem runs_of_pollsForEver (n : Nat) (hs : PollsForEver s) : ∃ t, Runs n s t ∧ StaysInLoop s t := by
  induction n generalizing s with
  | zero => exact ⟨s, runs_zero.2 rfl, hs.stays rfl⟩
  | succ n ih =>
    obtain ⟨-, h6, h7⟩ := hs.busy
    obtain ⟨u, hu⟩ := step_total h6 h7
    obtain ⟨hpolls, hop, hrsp, -⟩ := hs.after_step hu
    obtain ⟨t, hrun, hop', hrsp', hphase⟩ := ih hpolls
    exact ⟨t, runs_cons hu hrun, hop'.trans hop, hrsp'.trans hrsp, hphase⟩

/-- Settles O36, by induction on the number of steps: every step keeps `PollsForEver` and the response. -/
theorem neverReadyNeverCompletes : Obligations.NeverReadyNeverCompletes := by
  intro n s hmax hop hphase hanswers hturns hsupply
  obtain ⟨t, hrun, hop', hrsp, hphase'⟩ := runs_of_pollsForEver n ⟨hmax, hop, hphase, hanswers, hturns, hsupply⟩
  exact ⟨t, hrun, hop'.trans hop, hrsp, hphase'⟩

/-! ### The answers of forgotten requests -/

/-- A reset, a command taken after it, and the arrival that comes then: SEQ stands as the command left it, and the arrival meets the
ports, and what is owed on them, as the reset left them. -/
theorem runs_reset_offer_arrival {ptr : Byte} {standby answered : Bool} {w : CmdWord} {ws : List CmdWord} {a : Arrival}
    (hs : s.supply = .repeating a) (hc : s.cmdPort = w :: ws) (ht : s.turns = [.reset ptr standby answered, .offer]) :
    ∃ r t u, step s = .next r ∧ r = resetBlock ptr standby answered { s with turns := [.offer] } ∧ Runs 2 s t ∧ Runs 3 s u ∧
      t.seq.op.code = w ∧ u.seq = t.seq ∧
      u.busPort = (r.busPort ++ a.outcomes).drop r.busOwed ∧ u.busOwed = r.busOwed - (r.busPort ++ a.outcomes).length ∧
      u.timerPort = r.timerPort + a.delays - r.timerOwed ∧ u.timerOwed = r.timerOwed - (r.timerPort + a.delays) := by
  obtain ⟨r, hr⟩ : ∃ r, r = resetBlock ptr standby answered { s with turns := [.offer] } := ⟨_, rfl⟩
  have hreset : step s = .next r := by rw [hr, step_of_turn ht]; rfl
  have hturns : r.turns = [.offer] := by rw [hr, resetBlock_turns]
  have hport : r.cmdPort = w :: ws := by rw [hr, resetBlock_cmdPort]; exact hc
  have hsupply : r.supply = .repeating a := by rw [hr, resetBlock_supply]; exact hs
  obtain ⟨t, hoffer, hcode, -, -⟩ := step_offer_idle hturns hport (by rw [hr]; rfl)
  obtain ⟨hturns', hsupply'⟩ := step_turns hturns hoffer
  have harrive : step t = .next (arrive a t) := by
    rw [step_of_noTurn hturns', replenish_of_repeating (hsupply'.trans hsupply)]
  have hexec : exec (decodeCmd w) { r with turns := [] } = .next t := (step_offer hturns hport).symm.trans hoffer
  obtain ⟨-, -, -, -, hbus, htimer, -, -, -, hbusOwed, htimerOwed⟩ := exec_command_frame (decodeCmd_isCommand w) hexec
  have htwo : Runs 2 s t := runs_cons hreset (runs_cons hoffer (runs_zero.2 rfl))
  refine ⟨r, t, arrive a t, hreset, hr, htwo, runs_trans htwo (runs_cons harrive (runs_zero.2 rfl)), hcode, rfl, ?_, ?_, ?_, ?_⟩
  · rw [arrive_busPort, hbus, hbusOwed]
  · rw [arrive_busOwed, hbus, hbusOwed]
  · rw [arrive_timerPort, htimer, htimerOwed]
  · rw [arrive_timerOwed, htimer, htimerOwed]

/-- Settles O59: the reset owes one more answer, or none, and the arrival's first answers are dropped against what is owed. -/
theorem forgottenAnswersAreDropped : Obligations.ForgottenAnswersAreDropped := by
  intro s ptr standby q w ws a _ hq hs hc
  refine ⟨fun ht => ?_, fun ht => ?_⟩
  · obtain ⟨r, t, u, hreset, -, htwo, hthree, hcode, hseq, hb, hbo, htm, hto⟩ := runs_reset_offer_arrival hs hc ht
    obtain ⟨-, hdelay, hbus⟩ := resetTurnResetsBothUnits s ptr standby true _ ht
    refine ⟨t, u, htwo, hthree, hcode, hseq, fun hn hempty => ?_, fun n hn hzero => ?_⟩
    · cases hreset.symm.trans (hbus q hq hn rfl)
      rw [hb, hbo]
      simp [hempty]
    · cases hreset.symm.trans (hdelay n (hn ▸ hq) rfl)
      rw [htm, hto]
      simp [hzero]
  · obtain ⟨r, t, u, -, rfl, htwo, hthree, hcode, hseq, hb, hbo, htm, hto⟩ := runs_reset_offer_arrival hs hc ht
    refine ⟨t, u, htwo, hthree, hcode, hseq, fun hzero => ?_, fun hzero => ?_⟩
    · rw [hb, hbo]
      simp [resetBlock, hzero]
    · rw [htm, hto]
      simp [resetBlock, hzero]

end Sys2Proof.Machine
end

section
/-! SUPPORT. The environment's duties (70_reset_and_hazards.md rules R212 to R216). `Records` says what a `Life` remembers of the
history that led to it; every act that the checker lets pass keeps it. -/

namespace Sys2Proof.Machine

variable {l l' : Life} {h : List LifeAct}

/-! ### Histories -/

/-- Where a history leads, if it keeps the duties. -/
def lifeAfter : List LifeAct → Life → Option Life
  | [], l => some l
  | a :: rest, l => (l.act a).bind (lifeAfter rest)

/-- A dutiful history leads, act by act, to a `Life` in which its next act is let pass. -/
theorem lifeOk_append_cons {before after : List LifeAct} {a : LifeAct} (h : lifeOk (before ++ a :: after) l = true) :
    ∃ l' l'', lifeAfter before l = some l' ∧ l'.act a = some l'' := by
  induction before generalizing l with
  | nil =>
    cases ha : l.act a with
    | none => simp [lifeOk, ha] at h
    | some l'' => exact ⟨l, l'', rfl, ha⟩
  | cons b before ih =>
    cases hb : l.act b with
    | none => simp [lifeOk, hb] at h
    | some u =>
      simp only [List.cons_append, lifeOk, hb] at h
      obtain ⟨l', l'', hl', ha⟩ := ih h
      exact ⟨l', l'', by rw [lifeAfter, hb, Option.bind_some, hl'], ha⟩

/-- What `l` remembers of the history `h`, and the order of the acts in it. -/
structure Records (h : List LifeAct) (l : Life) : Prop where
  wasReset : l.wasReset = true ↔ .resetBlock ∈ h
  bus : l.bus = some true ↔ .construct true ∈ h
  outputs : l.outputs = true ↔ .setOutputs ∈ h
  timers : l.timers = true ↔ .createTimers ∈ h
  timersStopped : l.timersStopped = true ↔ .stopTimers ∈ h
  busDown : l.busDown = true ↔ .teardownBus ∈ h
  dmuxDown : l.dmuxDown = true ↔ .teardownDmux ∈ h
  commands : h.count .offer = h.count .response + l.commands
  busAfterReset : l.bus.isSome = true → l.wasReset = true
  outputsAfterReset : l.outputs = true → l.wasReset = true
  timersAfterOutputs : l.timers = true → l.outputs = true
  dmuxDownAfterStop : l.dmuxDown = true → l.timersStopped = true

theorem records_start : Records [] .start := by
  constructor <;> simp [Life.start]

/-- Each act that is let pass is recorded, and its condition is the order that `Records` states. -/
theorem records_act {a : LifeAct} (hr : Records h l) (ha : l.act a = some l') : Records (h ++ [a]) l' := by
  obtain ⟨hreset, hbus, houtputs, htimers, hstopped, hbusDown, hdmuxDown, hcommands, hbus', houtputs', htimers', hdown'⟩ := hr
  cases a with
  | offer =>
    obtain ⟨-, heq⟩ := Option.ite_none_right_eq_some.1 ha
    cases heq
    have hcount : (h ++ [LifeAct.offer]).count .offer = (h ++ [LifeAct.offer]).count .response + (l.commands + 1) := by
      simp [hcommands, Nat.add_assoc]
    constructor <;> simp_all
  | response =>
    obtain ⟨hopen, heq⟩ := Option.ite_none_left_eq_some.1 ha
    cases heq
    have hcount : (h ++ [LifeAct.response]).count .offer = (h ++ [LifeAct.response]).count .response + (l.commands - 1) := by
      simp [hcommands]
      omega
    constructor <;> simp_all
  | resetBlock =>
    obtain ⟨-, heq⟩ := Option.ite_none_left_eq_some.1 ha
    cases heq
    constructor <;> simp_all
  | construct ok | setOutputs | createTimers | updateDisplay | tick | stopTimers | teardownBus | teardownDmux =>
    obtain ⟨hcond, heq⟩ := Option.ite_none_right_eq_some.1 ha
    cases heq
    constructor <;> simp_all

theorem records_lifeAfter {h₀ h₁ : List LifeAct} (hr : Records h₀ l) (h : lifeAfter h₁ l = some l') : Records (h₀ ++ h₁) l' := by
  induction h₁ generalizing h₀ l with
  | nil =>
    cases h
    rwa [List.append_nil]
  | cons a rest ih =>
    obtain ⟨u, ha, h⟩ := Option.bind_eq_some_iff.1 h
    have := ih (records_act hr ha) h
    rwa [List.append_assoc] at this

/-- The history before an act of a dutiful history is recorded in a `Life` that lets the act pass. -/
theorem records_of_lifeOk {before after : List LifeAct} {a : LifeAct} (h : lifeOk (before ++ a :: after) .start = true) :
    ∃ l l', Records before l ∧ l.act a = some l' := by
  obtain ⟨l, l', hl, ha⟩ := lifeOk_append_cons h
  exact ⟨l, l', records_lifeAfter records_start hl, ha⟩

/-- Settles O56: the condition under which each act is let pass, read back into the history that is recorded. -/
theorem dutifulHistories : Obligations.DutifulHistories := by
  intro before after
  refine ⟨fun h => ?_, fun h => ?_, fun h => ?_, fun h => ?_, fun h => ?_⟩ <;>
    obtain ⟨l, l', hr, ha⟩ := records_of_lifeOk h <;>
    obtain ⟨hcond, -⟩ := Option.ite_none_right_eq_some.1 ha
  · obtain ⟨htimers, hrunning⟩ : l.timers = true ∧ l.timersStopped = false := by simpa using hcond
    have houtputs := hr.timersAfterOutputs htimers
    have hup : ¬ l.dmuxDown = true := fun hdown => by simp [hr.dmuxDownAfterStop hdown] at hrunning
    exact ⟨hr.wasReset.1 (hr.outputsAfterReset houtputs), hr.outputs.1 houtputs, hr.timers.1 htimers,
      fun hmem => by simp [hr.timersStopped.2 hmem] at hrunning, fun hmem => hup (hr.dmuxDown.2 hmem)⟩
  · obtain ⟨houtputs, hup⟩ : l.outputs = true ∧ l.dmuxDown = false := by simpa using hcond
    exact ⟨hr.wasReset.1 (hr.outputsAfterReset houtputs), hr.outputs.1 houtputs,
      fun hmem => by simp [hr.dmuxDown.2 hmem] at hup⟩
  · obtain ⟨⟨hbus, hbusUp⟩, hup⟩ : (l.bus = some true ∧ l.busDown = false) ∧ l.dmuxDown = false := by simpa using hcond
    exact ⟨hr.wasReset.1 (hr.busAfterReset (by rw [hbus]; rfl)), hr.bus.1 hbus,
      fun hmem => by simp [hr.busDown.2 hmem] at hbusUp, fun hmem => by simp [hr.dmuxDown.2 hmem] at hup⟩
  · obtain ⟨⟨hstopped, -⟩, hnone⟩ : (l.timersStopped = true ∧ l.dmuxDown = false) ∧ l.commands = 0 := by simpa using hcond
    exact ⟨hr.timersStopped.1 hstopped, by rw [hr.commands, hnone, Nat.add_zero]⟩
  · obtain ⟨⟨hbus, -⟩, hnone⟩ : (l.bus = some true ∧ l.busDown = false) ∧ l.commands = 0 := by simpa using hcond
    exact ⟨hr.bus.1 hbus, by rw [hr.commands, hnone, Nat.add_zero]⟩

/-! ### Construction and teardown -/

/-- Settles O55: both are tables of the two parts' success. -/
theorem constructionStopsTeardownGoesOn : Obligations.ConstructionStopsTeardownGoesOn :=
  ⟨fun _ => rfl, rfl, rfl, fun _ _ => rfl, fun _ => rfl, rfl, rfl⟩

end Sys2Proof.Machine
end
